-- ==== Sys2Proof/Word.lean ====
section
/-! DEFINITION. The units the JX-496 moves: bytes of a control-window record, and blocks. -/

namespace Sys2Proof

/-- One byte of a control-window block (R178 to R183). -/
abbrev Byte := BitVec 8

/-- One volume block, 1,024 bytes; its byte 0 is the least significant (byte order of the control window). -/
abbrev Block := BitVec 8192

end Sys2Proof
end

