-- ==== Sys2Proof/Syntax.lean ====
section
/-! DEFINITION. The commands of the JX-496: one constructor of `Instr` for each row of spec/opcode_table.json. -/

namespace Sys2Proof

/-- Who sends a front bus command: initiator 0..6 and tag 0..7 (R22). -/
structure Src where
  initiator : Fin 7
  tag : Fin 8
  deriving DecidableEq, Repr

/-- A side of a platter (R2, R67). -/
inductive PlatterSide
  | a
  | b
  deriving DecidableEq, Repr

/-- What a drive reports of one block it reads off its platter after its own retries (R90, R101). -/
inductive MediaRead
  | data (contents : Block)
  | blank
  | unreadable
  deriving DecidableEq, Repr

/-- What an inventory check finds in a slot: the label of the platter there and the side facing up (R190). -/
structure Found where
  label : Nat
  up : PlatterSide
  deriving DecidableEq, Repr

/-- The picker sensor's report at CLEAR PICKER (R159): what the picker record holds, no platter, or a platter. -/
inductive Sensor
  | asRecorded
  | nothing
  | platter (p : Nat)
  deriving DecidableEq, Repr

/-- A control-window command with its parameters at the widths of R178. -/
inductive Cmd
  | unknown (code : Byte)
  | setWindow (window enabled feeClass express writes : Byte)
  | setFixedRange (index htype readRoute writeRoute : Byte)
  | setVariableRange (index valid first last htype readRoute writeRoute : Byte)
  | setMapControl (mapEnable fixedEnable defaultType routing : Byte)
  | setMirrorPair (index valid primary mirror : Byte)
  | setTariff (cls : Byte) (f : BitVec 16) (n g : Byte) (k : BitVec 16) (sur : Byte) (c : BitVec 24)
  | setPageSize (p : Byte)
  | applyTariff
  | closeDay (apply : Byte)
  | ackClose (day : BitVec 16)
  | setService (mask dispatch tier back preempt autoResume : Byte)
  | setTiming (dwell : BitVec 16) (lowWater : Byte) (lineAge staging request : BitVec 16)
  | flushAll
  | resumePicker
  | clearDrive (drive : Byte)
  | clearPicker (sensor : Sensor)
  | takeOffline (drive flag : Byte)
  | releaseQuarantine (surface action : Byte)
  | restoreSeal (surface : Byte) (mark : BitVec 24)
  | setControlSet (members : Byte)
  | raiseLock (level : Byte)
  deriving DecidableEq, Repr

/-- The commands and events the part takes. -/
inductive Instr
  /-- READ (R24): `length` blocks at volume address `lba`. -/
  | read (src : Src) (lba length : Nat)
  /-- WRITE (R24); `data` is the initiator's copy of the extent, which it keeps until the status (R36). -/
  | write (src : Src) (lba length : Nat) (data : List Block)
  | controlWindowRead (src : Src) (block length : Nat)
  | controlWriteOtherBlock (src : Src) (block length : Nat)
  | unknownCommand (src : Src) (code : Byte)
  | setWindow (src : Src) (window enabled feeClass express writes : Byte)
  | setFixedRange (src : Src) (index htype readRoute writeRoute : Byte)
  | setVariableRange (src : Src) (index valid first last htype readRoute writeRoute : Byte)
  | setMapControl (src : Src) (mapEnable fixedEnable defaultType routing : Byte)
  | setMirrorPair (src : Src) (index valid primary mirror : Byte)
  | setTariff (src : Src) (cls : Byte) (f : BitVec 16) (n g : Byte) (k : BitVec 16) (sur : Byte) (c : BitVec 24)
  | setPageSize (src : Src) (p : Byte)
  | applyTariff (src : Src)
  | closeDay (src : Src) (apply : Byte)
  | ackClose (src : Src) (day : BitVec 16)
  | setService (src : Src) (mask dispatch tier back preempt autoResume : Byte)
  | setTiming (src : Src) (dwell : BitVec 16) (lowWater : Byte) (lineAge staging request : BitVec 16)
  | flushAll (src : Src)
  | resumePicker (src : Src)
  | clearDrive (src : Src) (drive : Byte)
  | clearPicker (src : Src) (sensor : Sensor)
  | takeOffline (src : Src) (drive : Byte)
  | returnDrive (src : Src) (drive : Byte)
  | releaseQuarantineRetry (src : Src) (surface : Byte)
  | releaseQuarantineDiscard (src : Src) (surface : Byte)
  | restoreSeal (src : Src) (surface : Byte) (mark : BitVec 24)
  | setControlSet (src : Src) (members : Byte)
  | raiseLock (src : Src) (level : Byte)
  | frontBusReset
  /-- POWER_ON (R185): the battery-good reading, the door input, the platter the picker's sensor reports, and
  the surface each drive reports it has spun up. -/
  | powerOn (batteryGood doorOpen : Bool) (gripped : Option Nat) (d0 d1 d2 d3 : Option Nat)
  | batteryGoodFall
  | batteryGoodRise
  | doorOpening
  | doorClosing
  | settleEnd
  | requestDeadlineExpiry (initiator : Fin 7) (tag : Fin 8)
  | stagingWaitLimitExpiry (initiator : Fin 7) (tag : Fin 8)
  | lineAgeLimitExpiry (surface line : Nat)
  | dwellDeadlineExpiry (drive : Fin 4)
  | spinUpComplete (drive : Fin 4)
  | spinUpLimit (drive : Fin 4)
  /-- SPIN_DOWN_COMPLETE (R73); `ejected` says whether the eject that follows took place. -/
  | spinDownComplete (drive : Fin 4) (ejected : Bool)
  | spinDownLimit (drive : Fin 4)
  | driveHardwareReport (drive : Fin 4)
  | ejectAttemptReport (drive : Fin 4) (taken : Bool)
  | ejectAttemptLimit (drive : Fin 4)
  /-- BURST_END (R71); `media` is what the drive reports of the platter blocks of the burst, by block number on
  the surface it reads. -/
  | burstEnd (drive : Fin 4) (media : List (Nat × MediaRead))
  | verifyEnd (drive : Fin 4) (passed : Bool)
  | pickerArrivesAtDrive
  | pickerGripAtDrive
  | platterReleaseInSlot
  | incomingPlatterGrip
  | pickerGripFailure
  | pickerFlipEnd
  | platterSeated
  | pickerStepLimit
  /-- PICKER_RECOVERY_RELEASE (R159); `released` is false when the picker reports the release as failed. -/
  | pickerRecoveryRelease (released : Bool)
  | inventorySlotCheck (found : Option Found)
  | statusSend (initiator : Fin 7) (tag : Fin 8)
  | powerLoss
  deriving DecidableEq, Repr

end Sys2Proof
end

