-- ==== Sys2Proof/Config.lean ====
section
/-! DEFINITION. The geometry and the fixed figures of the JX-496, and the free values of the model. -/

namespace Sys2Proof.Config

/-- Blocks of one window of the registry volume (R1). -/
def windowSpan : Nat := 67108864
/-- Blocks of the registry volume (R1). -/
def volumeBlocks : Nat := 536870912
/-- Blocks of the archive space (R1). -/
def archiveBlocks : Nat := 50331648
/-- Blocks of one surface (R2). -/
def surfaceBlocks : Nat := 262144
/-- Blocks of one piece of surface 0 or 1 (R2). -/
def pieceBlocks : Nat := 16384
/-- Surfaces of the jukebox (R2). -/
def surfaceCount : Nat := 192
/-- Platters of the jukebox, and slots (R67). -/
def platterCount : Nat := 96
/-- Blocks of a gather line and of a retain line (R95, R107). -/
def lineBlocks : Nat := 16
/-- Gather lines of buffer memory (R107). -/
def gatherLines : Nat := 32
/-- Retain lines of buffer memory (R95). -/
def retainLines : Nat := 96
/-- The most blocks of one burst (R71). -/
def burstBlocks : Nat := 64
/-- Entries of the request table (R26). -/
def tableEntries : Nat := 32
/-- Requests of one initiator in the table (R24). -/
def initiatorEntries : Nat := 8
/-- The drives' spin-up, spin-down and eject limit in ms (R70, R73, R155). -/
def driveLimit : Nat := 10000
/-- The picker's step limit in ms (R82). -/
def stepLimit : Nat := 15000
/-- The door settle in ms (R87). -/
def settleTime : Nat := 3000
/-- The largest value of a 32-bit count of the fee unit (R135, R136). -/
def maxCount : Nat := 4294967295

/-- FREE VALUE (log entry 9): the contents of block number `i` of data that the initiator did not
supply.  R36 asks the initiator to keep the whole extent's data; the spec states nothing of a block it does not. -/
opaque freeBlock : Nat → Block

/-- The nominal durations of section 4 of the drives chapter, in ms; they serve for planning only. -/
def nominalSpinUp : Nat := 2500
/-- Nominal spin-down before an eject. -/
def nominalSpinDown : Nat := 1500
/-- Nominal flip. -/
def nominalFlip : Nat := 1500
/-- Nominal inventory check of one slot. -/
def nominalCheck : Nat := 400

end Sys2Proof.Config
end

