-- ==== Sys2Proof/Machine/State.lean ====
section
/-! DEFINITION. The state of the JX-496 as plain data, and the state after reset. -/

namespace Sys2Proof.Machine

/-- No command stops this block: every fault the spec names is a state of a drive, of the picker or of a
request.  Nothing raises a fault, so the type has no constructor. -/
inductive Fault
  deriving DecidableEq, Repr

/-- Why a command would be refused by the model. -/
inductive Refusal
  /-- Raised by an arm of `exec` whose command has no meaning yet; safe.  No arm raises it. -/
  | notModelled (mnemonic : String)
  deriving DecidableEq, Repr

/-! ## Named values -/

/-- The kind of a request (R22). -/
inductive Kind
  | read
  | write
  deriving DecidableEq, Repr

/-- Service levels (R45), in the order readback gives them (R182). -/
inductive Level
  | express
  | counter
  | staff
  | write
  | flush
  deriving DecidableEq, Repr

/-- Tiers (R45). -/
inductive Tier
  | counter
  | backOffice
  deriving DecidableEq, Repr

/-- Handling types, in the order of their codes (section 1.3). -/
inductive HType
  | void
  | direct
  | retain
  | gather
  | sealed
  deriving DecidableEq, Repr

/-- A read route, a read side, or a side of a DUAL write (R9, R99, R105). -/
inductive Side
  | primary
  | mirror
  deriving DecidableEq, Repr

/-- A write route (R9). -/
inductive WriteRoute
  | primary
  | dual
  deriving DecidableEq, Repr

/-- Completion statuses, in the order of their codes (introduction). -/
inductive Status
  | good
  | blank
  | protect
  | gap
  | outOfRange
  | windowClosed
  | badLength
  | outOfService
  | queueFull
  | duplicateTag
  | quarantined
  | unavailable
  | mediaError
  | timeout
  | stagingTimeout
  | controlRefused
  deriving DecidableEq, Repr

/-- Outcomes of a control-window command, in the order of R179. -/
inductive CmdOutcome
  | done
  | clamped
  | refused
  deriving DecidableEq, Repr

/-- Reasons of a response record, in the order of R179. -/
inductive Reason
  | none
  | unknownCommand
  | notPermitted
  | badValue
  | locked
  | updatePending
  | closeUnread
  | busySurface
  | paired
  | notQuarantined
  | state
  | doorOpen
  deriving DecidableEq, Repr

/-! ## Volume map (R3, R9 to R15) -/

/-- A window record (section 1.2). -/
structure WindowRec where
  enabled : Bool
  feeClass : Nat
  express : Bool
  writes : Bool
  deriving DecidableEq, Repr

/-- A fixed range (R9). -/
structure FixedRange where
  htype : HType
  readRoute : Side
  writeRoute : WriteRoute
  deriving DecidableEq, Repr

/-- A variable range (R10). -/
structure VarRange where
  valid : Bool
  first : Nat
  last : Nat
  htype : HType
  readRoute : Side
  writeRoute : WriteRoute
  deriving DecidableEq, Repr

/-- Map control (R11). -/
structure MapControl where
  mapEnable : Bool
  fixedEnable : Bool
  defaultType : HType
  routing : Bool
  deriving DecidableEq, Repr

/-- A mirror pair record (R15). -/
structure MirrorPair where
  valid : Bool
  primary : Nat
  mirror : Nat
  deriving DecidableEq, Repr

/-- The window table, the extent map and the mirror table. -/
structure VolumeMap where
  windows : Vector WindowRec 7
  fixed : Vector FixedRange 32
  vars : Vector VarRange 16
  control : MapControl
  pairs : Vector MirrorPair 16
  deriving DecidableEq, Repr

/-- The result of resolving a map unit (R14). -/
structure Resolution where
  htype : HType
  readRoute : Side
  writeRoute : WriteRoute
  mirror : Option Nat
  deriving DecidableEq, Repr

/-! ## Settings (R27, R46, R85, R114) -/

/-- The settings SET SERVICE and SET TIMING write. -/
structure Settings where
  /-- Bit `i` enables the level whose place in `Level` is `i` (R175). -/
  levelMask : BitVec 5
  dispatch : Bool
  tierCode : Nat
  backCode : Nat
  preempt : Bool
  /-- ms -/
  dwell : Nat
  lowWater : Nat
  /-- s -/
  lineAge : Nat
  /-- s -/
  stagingWait : Nat
  /-- s; 0 means none -/
  requestLimit : Nat
  autoResume : Bool
  deriving DecidableEq, Repr

/-! ## Requests and segments (R23, R29) -/

/-- Whether buffer memory or a drive serves a segment (R30, R32). -/
inductive SegKind
  | ram
  | drive
  deriving DecidableEq, Repr

/-- Segment states (R34). -/
inductive SegState
  | queued
  | inService
  | parked
  | done
  deriving DecidableEq, Repr

/-- A segment record (R29). -/
structure Segment where
  surface : Nat
  first : Nat
  count : Nat
  htype : HType
  readRoute : Side
  writeRoute : WriteRoute
  mirror : Option Nat
  kind : SegKind
  state : SegState
  current : Nat
  attempts : Nat
  status : Status
  readSide : Side
  served : Nat
  billable : Nat
  staged : Nat
  failedVerify : Nat
  primaryDone : Bool
  /-- The blocks served so far, kept for delivery (R93, R101). -/
  kept : List Block
  deriving DecidableEq, Repr

/-- Request states (R33). -/
inductive ReqState
  | stagingWait
  | active
  | completing
  deriving DecidableEq, Repr

/-- A request record (R23), with its acceptance time (R182), the expiry of its staging wait limit (R114) and the
initiator's copy of its data (R36, log entry 9). -/
structure Request where
  initiator : Fin 7
  tag : Fin 8
  kind : Kind
  window : Nat
  feeClass : Nat
  level : Level
  start : Nat
  length : Nat
  generation : BitVec 8
  state : ReqState
  deadline : Option Nat
  segments : List Segment
  delivered : Nat
  billable : Nat
  staged : Nat
  status : Status
  accepted : Nat
  stagingExpiry : Option Nat
  data : List Block
  deriving DecidableEq, Repr

/-- The name of a request segment (R62). -/
structure SegRef where
  initiator : Fin 7
  tag : Fin 8
  index : Nat
  deriving DecidableEq, Repr

/-- A request segment or a flush segment (R62). -/
inductive WorkRef
  | request (r : SegRef)
  | flush (surface line : Nat)
  deriving DecidableEq, Repr

/-! ## Filing (R105, R107, R116) -/

/-- Whether the seal mark is trusted for writing (R105). -/
inductive Condition
  | known
  | unknown
  deriving DecidableEq, Repr

/-- A quarantine record (R105). -/
structure Quarantine where
  line : Nat
  side : Side
  attempts : Nat
  deriving DecidableEq, Repr

/-- A surface record (R105). -/
structure SurfaceRec where
  sealMark : Nat
  appendPoint : Nat
  condition : Condition
  quarantine : Option Quarantine
  deriving DecidableEq, Repr

/-- States of a gather line in use (R107); a FREE line is one that is not in the list. -/
inductive LineState
  | filling
  | flushing
  | verifying
  | pinned
  deriving DecidableEq, Repr

/-- A gather line in use (R107): its staged run is [`lo`, `hi`) in blocks of the surface, and `data` holds those blocks. -/
structure GatherLine where
  surface : Nat
  index : Nat
  lo : Nat
  hi : Nat
  data : List Block
  state : LineState
  /-- The due moment; the line is due when it is present (R115). -/
  due : Option Nat
  firstStaged : Nat
  /-- When the line reaches its age limit (R114). -/
  ageExpiry : Nat
  attempts : Nat
  deriving DecidableEq, Repr

/-- States of a flush segment (R116). -/
inductive FlushState
  | queued
  | inService
  | parked
  deriving DecidableEq, Repr

/-- A flush segment (R116 to R118). -/
structure Flush where
  surface : Nat
  line : Nat
  writeRoute : WriteRoute
  mirror : Option Nat
  due : Nat
  state : FlushState
  /-- The flush range [lo, hi), fixed at its dispatch (R117). -/
  range : Option (Nat × Nat)
  primaryDone : Bool
  deriving DecidableEq, Repr

/-- A retain line in use (R95); the list of them is the recency order, most recently used first. -/
structure RetainLine where
  surface : Nat
  index : Nat
  data : List Block
  deriving DecidableEq, Repr

/-! ## Drives (R62, R69) -/

/-- Drive states, in the order of R69. -/
inductive DriveState
  | empty
  | loading
  | ready
  | transfer
  | verify
  | unloading
  | fault
  | offline
  deriving DecidableEq, Repr

/-- Fault reasons of a drive, in the order of R75. -/
inductive DriveReason
  | spinUpLimit
  | spinDownLimit
  | eject
  | hardware
  | orphan
  deriving DecidableEq, Repr

/-- The pass of a write or flush: its side and the failed verifies counted so far (R69, R125). -/
structure Pass where
  side : Side
  failed : Nat
  deriving DecidableEq, Repr

/-- A retain line whose reading has begun and is not finished (R96). -/
structure Fill where
  index : Nat
  data : List Block
  whole : Bool
  deriving DecidableEq, Repr

/-- Where a block of a read burst comes from, decided as the burst begins (R90, R91, log entry 11): the platter, a gather
line or a retain line with the contents it then had, or nowhere, the block being BLANK. -/
inductive Source
  | platter
  | staged (contents : Block)
  | cached (contents : Block)
  | nothing
  deriving DecidableEq, Repr

/-- The segment a drive holds (R54). -/
structure Work where
  ref : WorkRef
  level : Level
  /-- The sources of the blocks of the read burst in hand, in their order (R90). -/
  reached : List Source
  /-- The record of a segment whose request a front bus reset dropped while the drive was serving it (R42). -/
  dropped : Option Segment
  fill : Option Fill
  deriving DecidableEq, Repr

/-- A parked context (R62); the parking drive also keeps the pass (R62, R125). -/
structure Parked where
  ref : WorkRef
  level : Level
  surface : Nat
  next : Nat
  remaining : Nat
  pass : Option Pass
  deriving DecidableEq, Repr

/-- The outcome of an eject attempt of a faulted drive (R155). -/
inductive EjectOutcome
  | taken
  | notTaken
  deriving DecidableEq, Repr

/-- A drive record (R69), with what R155, R157, R166 and R189 add. -/
structure Drive where
  state : DriveState
  platter : Option Nat
  mounted : Option Nat
  work : Option Work
  /-- The current count: blocks left in the current pass. -/
  left : Nat
  pass : Option Pass
  dwell : Option Nat
  preempt : Option SegRef
  parked : Option Parked
  lastUse : Nat
  offlineFlag : Bool
  reason : Option DriveReason
  /-- An eject attempt runs (R155). -/
  ejecting : Bool
  /-- The outcome of the last eject attempt (R166). -/
  lastEject : Option EjectOutcome
  /-- CLEAR DRIVE has begun an eject attempt or its RETURN HOME (R157). -/
  clearing : Bool
  /-- The platter waits at the mouth (R73, R78). -/
  ejected : Bool
  /-- When the running 10 s limit passes (R70, R73, R155). -/
  limit : Option Nat
  /-- The surface the drive reported at power-on, which inventory writes the platter's orientation from (R69, R189). -/
  reported : Option Nat
  deriving DecidableEq, Repr

/-! ## Picker (R67, R76, R85) -/

/-- Where a platter is; none when not present (R67). -/
inductive Location
  | slot
  | drive (d : Fin 4)
  | picker
  deriving DecidableEq, Repr

/-- A platter record (R67). -/
structure Platter where
  present : Bool
  location : Option Location
  orientation : PlatterSide
  held : Bool
  misfile : Option Nat
  deriving DecidableEq, Repr

/-- Kinds of exchange order (R76). -/
inductive OrderKind
  | exchange
  | turnover
  | returnHome
  deriving DecidableEq, Repr

/-- States of an exchange order (R76). -/
inductive OrderState
  | queued
  | running
  | halted
  deriving DecidableEq, Repr

/-- An exchange order (R76). -/
structure Order where
  drive : Fin 4
  kind : OrderKind
  outgoing : Option Nat
  incoming : Option Nat
  wanted : Option PlatterSide
  express : Bool
  step : Nat
  state : OrderState
  /-- A RETURN HOME that R74 placed for a READY drive with its offline flag set (log entry 16). -/
  forOffline : Bool
  /-- A RETURN HOME that a cancellation made (R83); it makes a drive with its offline flag set OFFLINE at its release (R164). -/
  cancelled : Bool
  deriving DecidableEq, Repr

/-- Picker states, in the order of R85. -/
inductive PickerState
  | inventory
  | parked
  | busy
  | halted
  | fault
  deriving DecidableEq, Repr

/-- Where the picker last ended a move (R82, R85). -/
inductive Position
  | slot (n : Nat)
  | drive (d : Fin 4)
  deriving DecidableEq, Repr

/-- Door phases, in the order of R85. -/
inductive DoorPhase
  | closed
  | opened
  | settling
  deriving DecidableEq, Repr

/-- Fault reasons of the picker (R85). -/
inductive PickerReason
  | stepLimit
  | grip
  deriving DecidableEq, Repr

/-- A halt record (R85): the state to return to and whether the picker awaits RESUME PICKER. -/
structure Halt where
  back : PickerState
  awaiting : Bool
  deriving DecidableEq, Repr

/-- The task inventory has reached (R189, R190). -/
inductive InvTask
  /-- Inventory has not begun: the door was open at power-on (R85). -/
  | start
  /-- Checking the home slot of the platter the picker grips. -/
  | gripCheck (p : Nat)
  /-- Releasing the gripped platter in its empty home slot. -/
  | gripRelease (p : Nat)
  /-- Inserting the gripped platter into a drive, its home slot being occupied. -/
  | gripInsert (p : Nat) (d : Fin 4)
  /-- The home slot is occupied and no drive is free for the gripped platter. -/
  | gripStuck (p : Nat)
  /-- Checking the home slot of the platter of a drive. -/
  | driveCheck (d : Fin 4)
  /-- Waiting for the picker at the drive and for the platter at the mouth. -/
  | driveUnload (d : Fin 4)
  /-- Gripping the platter at the drive mouth. -/
  | driveGrip (d : Fin 4)
  /-- Carrying the platter of a drive home. -/
  | driveCarry (d : Fin 4) (p : Nat)
  /-- Checking slot `n` in the second task. -/
  | slot (n : Nat)
  deriving DecidableEq, Repr

/-- The picker record (R85).  Its current activity is the RUNNING or HALTED order at the head of the exchange order
queue, the inventory task, or the recovery step. -/
structure Picker where
  state : PickerState
  position : Option Position
  gripped : Option Nat
  door : DoorPhase
  halt : Option Halt
  reason : Option PickerReason
  /-- Present while inventory runs (R189). -/
  inventory : Option InvTask
  /-- A recovery step is in hand (R159). -/
  recovering : Bool
  /-- When the running step limit passes (R82). -/
  stepLimit : Option Nat
  /-- When the door settle ends (R87). -/
  settleEnd : Option Nat
  /-- A move has been broken off since the position was recorded (log entry 17). -/
  midway : Bool
  /-- The platters whose home slot inventory has found occupied (R159, R189). -/
  slotTaken : List Nat
  deriving DecidableEq, Repr

/-! ## Fee unit (R131, R135, R145) -/

/-- A class entry of a tariff (R131). -/
structure ClassEntry where
  f : Nat
  n : Nat
  g : Nat
  k : Nat
  s : Nat
  c : Nat
  deriving DecidableEq, Repr

/-- A tariff (R131); the entry of class `c` stands at place `c - 1`. -/
structure Tariff where
  page : Nat
  classes : Vector ClassEntry 7
  deriving DecidableEq, Repr

/-- A tally record (R135). -/
structure Tally where
  amount : Nat
  pages : Nat
  requests : Nat
  saturated : Bool
  deriving DecidableEq, Repr

/-- The side counts of one initiator (R136). -/
structure SideCounts where
  failed : Nat
  staged : Nat
  deriving DecidableEq, Repr

/-- States of the close record (R145). -/
inductive CloseState
  | empty
  | unread
  | acknowledged
  deriving DecidableEq, Repr

/-- The close record (R145). -/
structure CloseRecord where
  state : CloseState
  day : BitVec 16
  generation : BitVec 8
  tallies : Vector (Vector Tally 7) 7
  sides : Vector SideCounts 7
  inFlight : Nat
  tallyLost : Bool
  deriving DecidableEq, Repr

/-- Update states (R139). -/
inductive UpdateState
  | current
  | deferred
  deriving DecidableEq, Repr

/-- The fee unit: tallies are indexed by initiator, then by class less 1. -/
structure FeeUnit where
  active : Tariff
  previous : Tariff
  pending : Tariff
  generation : BitVec 8
  update : UpdateState
  tallies : Vector (Vector Tally 7) 7
  sides : Vector SideCounts 7
  tallyLost : Bool
  day : BitVec 16
  close : CloseRecord
  activeCount : Nat
  previousCount : Nat
  deriving DecidableEq, Repr

/-! ## Control unit (R170, R173, R174) -/

/-- A response record (R170). -/
structure Response where
  code : Byte
  outcome : CmdOutcome
  reason : Reason
  sequence : BitVec 8
  deriving DecidableEq, Repr

/-- The control unit. -/
structure ControlUnit where
  /-- Bit `i` stands for initiator `i` (R173). -/
  members : BitVec 7
  lock : Nat
  responses : Vector Response 7
  deriving DecidableEq, Repr

/-! ## The front bus, and the whole -/

/-- What the part puts on the front bus (R22, R35, R36, R38, R168). -/
inductive BusMsg
  /-- A completion status, with the initiator and the tag it answers. -/
  | status (initiator : Fin 7) (tag : Fin 8) (code : Status)
  /-- The blocks of one segment, with the volume address of the first. -/
  | data (initiator : Fin 7) (tag : Fin 8) (lba : Nat) (blocks : List Block)
  /-- A fetch of `count` blocks of write data from volume address `lba` on. -/
  | fetch (initiator : Fin 7) (tag : Fin 8) (lba count : Nat)
  /-- A control-window block. -/
  | readback (initiator : Fin 7) (tag : Fin 8) (block : Nat) (bytes : List Byte)
  deriving DecidableEq, Repr

/-- The request unit, the arbiter, the drives, the picker and the filing engine, with buffer memory. -/
structure Jukebox where
  /-- The request table in acceptance order (R26). -/
  table : List Request
  lastTier : Tier
  drives : Vector Drive 4
  picker : Picker
  /-- The exchange order queue (R77). -/
  orders : List Order
  platters : Vector Platter 96
  surfaces : Vector SurfaceRec 192
  /-- Gather lines in use, in order of surface and line index. -/
  lines : List GatherLine
  /-- Flush segments, oldest due moment first (R51). -/
  flushes : List Flush
  /-- Retain lines in use, most recently used first (R95). -/
  retain : List RetainLine
  /-- The front bus traffic of the last command (log entry 4). -/
  bus : List BusMsg
  deriving DecidableEq, Repr

/-- The state of the JX-496, with the queue of waiting commands. -/
structure State where
  powered : Bool
  /-- Running time in ms (R184). -/
  now : Nat
  batteryLow : Bool
  map : VolumeMap
  settings : Settings
  control : ControlUnit
  fee : FeeUnit
  jb : Jukebox
  pending : List Instr
  deriving DecidableEq, Repr

/-! ## Cold-start and power-on values -/

/-- Windows 1..6 at a cold start (R3). -/
def WindowRec.closed : WindowRec := ⟨false, 0, false, false⟩

/-- The volume map at a cold start (R3, R9, R10, R11, R15). -/
def VolumeMap.cold : VolumeMap where
  windows := (Vector.replicate 7 WindowRec.closed).set 0 ⟨true, 0, false, true⟩
  fixed := Vector.replicate 32 ⟨.void, .primary, .primary⟩
  vars := Vector.replicate 16 ⟨false, 0, 0, .void, .primary, .primary⟩
  control := ⟨false, false, .sealed, false⟩
  pairs := Vector.replicate 16 ⟨false, 0, 0⟩

/-- The settings at a cold start (R27, R46, R85, R114). -/
def Settings.cold : Settings where
  levelMask := 0b11111
  dispatch := true
  tierCode := 0
  backCode := 4
  preempt := true
  dwell := 1500
  lowWater := 4
  lineAge := 20
  stagingWait := 30
  requestLimit := 120
  autoResume := true

/-- A response record at power-on (R170). -/
def Response.powerOn : Response := ⟨0, .done, .none, 0⟩

/-- The control unit at a cold start (R170, R173, R174). -/
def ControlUnit.cold : ControlUnit where
  members := 1
  lock := 0
  responses := Vector.replicate 7 Response.powerOn

/-- A tariff at a cold start (R131). -/
def Tariff.cold : Tariff := ⟨32, Vector.replicate 7 ⟨0, 0, 1, 0, 0, 0⟩⟩

/-- Tally records of a new day (R137, R146). -/
def zeroTallies : Vector (Vector Tally 7) 7 := Vector.replicate 7 (Vector.replicate 7 ⟨0, 0, 0, false⟩)

/-- Side counts of a new day (R137, R146). -/
def zeroSides : Vector SideCounts 7 := Vector.replicate 7 ⟨0, 0⟩

/-- The close record at a cold start (R145). -/
def CloseRecord.cold : CloseRecord := ⟨.empty, 0, 0, zeroTallies, zeroSides, 0, false⟩

/-- The fee unit at a cold start (R131, R137, R138, R141, R145). -/
def FeeUnit.cold : FeeUnit where
  active := Tariff.cold
  previous := Tariff.cold
  pending := Tariff.cold
  generation := 0
  update := .current
  tallies := zeroTallies
  sides := zeroSides
  tallyLost := true
  day := 0
  close := CloseRecord.cold
  activeCount := 0
  previousCount := 0

/-- A drive with nothing inside, as a power-on leaves it (R69). -/
def Drive.bare : Drive where
  state := .empty
  platter := none
  mounted := none
  work := none
  left := 0
  pass := none
  dwell := none
  preempt := none
  parked := none
  lastUse := 0
  offlineFlag := false
  reason := none
  ejecting := false
  lastEject := none
  clearing := false
  ejected := false
  limit := none
  reported := none

/-- A platter record after a cold start, before inventory (R67, R185). -/
def Platter.cold : Platter := ⟨false, none, .a, false, none⟩

/-- A surface record at a cold start (R105, R187). -/
def SurfaceRec.cold : SurfaceRec := ⟨262144, 262144, .unknown, none⟩

/-- The picker of a jukebox with the door closed, no platter gripped and no drive loaded, as inventory begins its
first slot check (R85, R189, R190). -/
def Picker.cold : Picker where
  state := .inventory
  position := none
  gripped := none
  door := .closed
  halt := none
  reason := none
  inventory := some (.slot 0)
  recovering := false
  stepLimit := some 15000
  settleEnd := none
  midway := false
  slotTaken := []

/-- The jukebox after a cold start with the door closed, no platter gripped and no drive loaded (log entry 8). -/
def Jukebox.cold : Jukebox where
  table := []
  lastTier := .backOffice
  drives := Vector.replicate 4 Drive.bare
  picker := Picker.cold
  orders := []
  platters := Vector.replicate 96 Platter.cold
  surfaces := Vector.replicate 192 SurfaceRec.cold
  lines := []
  flushes := []
  retain := []
  bus := []

/-- The machine right after reset: a cold start (R185, R187) with the door closed, no platter gripped and no drive
loaded (log entry 8). -/
def State.reset : State where
  powered := true
  now := 0
  batteryLow := true
  map := VolumeMap.cold
  settings := Settings.cold
  control := ControlUnit.cold
  fee := FeeUnit.cold
  jb := Jukebox.cold
  pending := []

end Sys2Proof.Machine
end

