-- ==== Sys2Proof/Machine/Ops.lean ====
section
/-! DEFINITION. Named reads and updates of the state, which every other operation is written with. -/

namespace Sys2Proof.Machine

/-- What an event reads and does not change: running time, the volume map, the settings and battery-low mode. -/
structure Env where
  now : Nat
  map : VolumeMap
  settings : Settings
  batteryLow : Bool
  deriving DecidableEq, Repr

/-- The surroundings of the jukebox in state `s`. -/
def State.env (s : State) : Env := ⟨s.now, s.map, s.settings, s.batteryLow⟩

/-- Carry out an operation on the jukebox alone. -/
def State.onJb (s : State) (f : Env → Jukebox → Jukebox) : State := { s with jb := f s.env s.jb }

/-! ## Codes (introduction, section 1.3, R46, R175) -/

/-- The place of a level in its list, and its bit in the level mask (R175). -/
def Level.code : Level → Nat
  | .express => 0
  | .counter => 1
  | .staff => 2
  | .write => 3
  | .flush => 4

/-- The tier of a level (R45). -/
def Level.tier : Level → Tier
  | .express => .counter
  | .counter => .counter
  | .staff => .backOffice
  | .write => .backOffice
  | .flush => .backOffice

/-- The enable of a level in the level mask (R46, R50). -/
def Settings.enables (t : Settings) (l : Level) : Bool := t.levelMask.getLsbD l.code

/-- The code of a handling type (section 1.3). -/
def HType.code : HType → Nat
  | .void => 0
  | .direct => 1
  | .retain => 2
  | .gather => 3
  | .sealed => 4

/-- The handling type of a code; 05h and above name none (section 1.3, R178). -/
def HType.ofCode : Nat → Option HType
  | 0 => some .void
  | 1 => some .direct
  | 2 => some .retain
  | 3 => some .gather
  | 4 => some .sealed
  | _ => none

/-- The code of a completion status (introduction). -/
def Status.code : Status → Nat
  | .good => 0x00
  | .blank => 0x01
  | .protect => 0x02
  | .gap => 0x03
  | .outOfRange => 0x04
  | .windowClosed => 0x05
  | .badLength => 0x06
  | .outOfService => 0x07
  | .queueFull => 0x08
  | .duplicateTag => 0x09
  | .quarantined => 0x0A
  | .unavailable => 0x0B
  | .mediaError => 0x0C
  | .timeout => 0x0D
  | .stagingTimeout => 0x0E
  | .controlRefused => 0x0F

/-! ## Geometry (R2, R68) -/

/-- The platter of a surface (R2). -/
def platterOf (surface : Nat) : Nat := surface / 2

/-- The side of its platter a surface is (R2). -/
def sideOf (surface : Nat) : PlatterSide := if surface % 2 = 0 then .a else .b

/-- The surface that faces up on platter `p` (R68). -/
def surfaceUp (p : Nat) : PlatterSide → Nat
  | .a => 2 * p
  | .b => 2 * p + 1

/-- The other side of a platter. -/
def otherSide : PlatterSide → PlatterSide
  | .a => .b
  | .b => .a

/-- Block `i` of a list of blocks; a block that is not there is a free value (log entry 9). -/
def blockAt (l : List Block) (i : Nat) : Block := l.getD i (Config.freeBlock i)

/-! ## Segments -/

/-- One past the last block of a segment on its surface. -/
def Segment.end (g : Segment) : Nat := g.first + g.count

/-- The next block of a read segment to serve (R101). -/
def Segment.next (g : Segment) : Nat := g.end - g.current

/-- The target of a queued segment (R53, R99, R152): for a read the side its read side names, for a write the surface
of its next pass. -/
def Segment.target (k : Kind) (g : Segment) : Nat :=
  match k with
  | .read => match g.readSide with
    | .primary => g.surface
    | .mirror => g.mirror.getD g.surface
  | .write => if g.primaryDone then g.mirror.getD g.surface else g.surface

/-- The target of a flush segment (R53, R118). -/
def Flush.target (f : Flush) : Nat := if f.primaryDone then f.mirror.getD f.surface else f.surface

/-! ## The request table -/

/-- The request of an initiator with a tag (R25). -/
def Jukebox.request (j : Jukebox) (i : Fin 7) (t : Fin 8) : Option Request :=
  j.table.find? fun q => q.initiator = i && q.tag = t

/-- Change the request of an initiator with a tag. -/
def Jukebox.onRequest (j : Jukebox) (i : Fin 7) (t : Fin 8) (f : Request → Request) : Jukebox :=
  { j with table := j.table.map fun q => if q.initiator = i && q.tag = t then f q else q }

/-- A request with its segment at `k` changed. -/
def Request.onSegment (q : Request) (k : Nat) (f : Segment → Segment) : Request :=
  { q with segments := q.segments.modify k f }

/-- The request and the segment a name stands for. -/
def Jukebox.segment (j : Jukebox) (r : SegRef) : Option (Request × Segment) :=
  (j.request r.initiator r.tag).bind fun q => (q.segments[r.index]?).map fun g => (q, g)

/-- Change one segment of the table. -/
def Jukebox.onSegment (j : Jukebox) (r : SegRef) (f : Segment → Segment) : Jukebox :=
  j.onRequest r.initiator r.tag fun q => q.onSegment r.index f

/-- The names of a request's segments, segment 0 first. -/
def Request.refs (q : Request) : List SegRef :=
  (List.range q.segments.length).map fun k => ⟨q.initiator, q.tag, k⟩

/-- The requests in STAGING-WAIT in acceptance order: the staging reservation queue (R109, R128). -/
def Jukebox.stagingQueue (j : Jukebox) : List Request := j.table.filter fun q => q.state = .stagingWait

/-- Send a message on the front bus. -/
def Jukebox.send (j : Jukebox) (m : BusMsg) : Jukebox := { j with bus := j.bus ++ [m] }

/-! ## Drives, picker, platters -/

/-- The record of drive `d`. -/
def Jukebox.drive (j : Jukebox) (d : Fin 4) : Drive := j.drives[d]

/-- Change the record of drive `d`. -/
def Jukebox.onDrive (j : Jukebox) (d : Fin 4) (f : Drive → Drive) : Jukebox :=
  { j with drives := j.drives.set d (f (j.drive d)) }

/-- The four drives in order. -/
def allDrives : List (Fin 4) := [0, 1, 2, 3]

/-- Change the picker record. -/
def Jukebox.onPicker (j : Jukebox) (f : Picker → Picker) : Jukebox := { j with picker := f j.picker }

/-- The record of platter `p`. -/
def Jukebox.platter (j : Jukebox) (p : Nat) : Platter := j.platters.toList.getD p Platter.cold

/-- Change the record of platter `p`. -/
def Jukebox.onPlatter (j : Jukebox) (p : Nat) (f : Platter → Platter) : Jukebox :=
  { j with platters := j.platters.setIfInBounds p (f (j.platter p)) }

/-- A platter that is present and not held (R100). -/
def Jukebox.reachable (j : Jukebox) (p : Nat) : Bool := (j.platter p).present && !(j.platter p).held

/-- Inventory runs (R189). -/
def Jukebox.inventoryRuns (j : Jukebox) : Bool := j.picker.inventory.isSome

/-- The order naming drive `d` (R69). -/
def Jukebox.orderOf (j : Jukebox) (d : Fin 4) : Option Order := j.orders.find? fun o => o.drive = d

/-- Change the order naming drive `d`. -/
def Jukebox.onOrder (j : Jukebox) (d : Fin 4) (f : Order → Order) : Jukebox :=
  { j with orders := j.orders.map fun o => if o.drive = d then f o else o }

/-- The order RUNNING at the head of the queue (R77). -/
def Jukebox.runningOrder (j : Jukebox) : Option Order := j.orders.head?.filter fun o => o.state = .running

/-- The order RUNNING or HALTED at the head of the queue (R77). -/
def Jukebox.currentOrder (j : Jukebox) : Option Order := j.orders.head?.filter fun o => o.state != .queued

/-! ## Surfaces, gather lines, flush segments -/

/-- The record of surface `n`. -/
def Jukebox.surface (j : Jukebox) (n : Nat) : SurfaceRec := j.surfaces.toList.getD n SurfaceRec.cold

/-- Change the record of surface `n`. -/
def Jukebox.onSurface (j : Jukebox) (n : Nat) (f : SurfaceRec → SurfaceRec) : Jukebox :=
  { j with surfaces := j.surfaces.setIfInBounds n (f (j.surface n)) }

/-- The lines of a surface in use, in ascending line index. -/
def Jukebox.linesOf (j : Jukebox) (surface : Nat) : List GatherLine := j.lines.filter fun l => l.surface = surface

/-- The line in use of a surface and line index. -/
def Jukebox.line (j : Jukebox) (surface index : Nat) : Option GatherLine :=
  j.lines.find? fun l => l.surface = surface && l.index = index

/-- Change the line in use of a surface and line index. -/
def Jukebox.onLine (j : Jukebox) (surface index : Nat) (f : GatherLine → GatherLine) : Jukebox :=
  { j with lines := j.lines.map fun l => if l.surface = surface && l.index = index then f l else l }

/-- Make the line of a surface and line index FREE (R108). -/
def Jukebox.freeLine (j : Jukebox) (surface index : Nat) : Jukebox :=
  { j with lines := j.lines.filter fun l => !(l.surface = surface && l.index = index) }

/-- The count of FREE gather lines (R49, R107). -/
def Jukebox.freeLines (j : Jukebox) : Nat := Config.gatherLines - j.lines.length

/-- Place a line in use in the order of surface and line index. -/
def insertLine (l : GatherLine) : List GatherLine → List GatherLine
  | [] => [l]
  | x :: xs =>
    if l.surface < x.surface || (l.surface = x.surface && l.index < x.index) then l :: x :: xs
    else x :: insertLine l xs

/-- The flush segment of a surface; there is at most one (R116). -/
def Jukebox.flush (j : Jukebox) (surface : Nat) : Option Flush := j.flushes.find? fun f => f.surface = surface

/-- Change the flush segment of a surface. -/
def Jukebox.onFlush (j : Jukebox) (surface : Nat) (f : Flush → Flush) : Jukebox :=
  { j with flushes := j.flushes.map fun x => if x.surface = surface then f x else x }

/-- Take away the flush segment of a surface. -/
def Jukebox.dropFlush (j : Jukebox) (surface : Nat) : Jukebox :=
  { j with flushes := j.flushes.filter fun x => x.surface != surface }

/-- Place a flush segment by its due moment, after those that are as old (R51, log entry 13). -/
def insertFlush (f : Flush) : List Flush → List Flush
  | [] => [f]
  | x :: xs => if f.due < x.due then f :: x :: xs else x :: insertFlush f xs

/-! ## The retain cache (R95) -/

/-- The retain line in use of a surface and line index. -/
def retainFind (cache : List RetainLine) (surface index : Nat) : Option RetainLine :=
  cache.find? fun l => l.surface = surface && l.index = index

/-- The cache without the line of a surface and line index. -/
def retainDrop (cache : List RetainLine) (surface index : Nat) : List RetainLine :=
  cache.filter fun l => !(l.surface = surface && l.index = index)

/-- Make a cached line the most recently used (R97). -/
def retainTouch (cache : List RetainLine) (surface index : Nat) : List RetainLine :=
  match retainFind cache surface index with
  | some l => l :: retainDrop cache surface index
  | none => cache

/-- Install a line: a cached line keeps its contents; a full cache evicts its least recently used line (R96, R97). -/
def retainInstall (cache : List RetainLine) (l : RetainLine) : List RetainLine :=
  match retainFind cache l.surface l.index with
  | some _ => retainTouch cache l.surface l.index
  | none => l :: cache.take (Config.retainLines - 1)

/-- Discard every line holding a block of [`lo`, `hi`) of a surface (R98). -/
def retainDiscard (cache : List RetainLine) (surface lo hi : Nat) : List RetainLine :=
  cache.filter fun l =>
    !(l.surface = surface && lo < hi && lo / Config.lineBlocks ≤ l.index && l.index ≤ (hi - 1) / Config.lineBlocks)

/-- Replace the blocks of [`lo`, `hi`) that a surface's cached lines hold by the written data (R98). -/
def retainUpdate (cache : List RetainLine) (surface lo hi : Nat) (data : List Block) : List RetainLine :=
  cache.map fun l =>
    if l.surface = surface then
      { l with
        data := (List.range Config.lineBlocks).map fun k =>
          let b := l.index * Config.lineBlocks + k
          if lo ≤ b && b < hi then blockAt data (b - lo) else blockAt l.data k }
    else l

/-! ## Small choices -/

/-- The first element with the least key (lowest-numbered on a tie). -/
def leastBy {α : Type} (key : α → Nat) : List α → Option α
  | [] => none
  | x :: xs =>
    match leastBy key xs with
    | none => some x
    | some y => if key x ≤ key y then some x else some y

/-- The first element with the greatest key (lowest-numbered on a tie). -/
def greatestBy {α : Type} (key : α → Nat) : List α → Option α
  | [] => none
  | x :: xs =>
    match greatestBy key xs with
    | none => some x
    | some y => if key y ≤ key x then some x else some y

end Sys2Proof.Machine
end

