-- ==== Sys2Proof/Machine/Clock.lean ====
section
/-! DEFINITION. The idle tick of the model: running time, the part's own deadlines and the statuses that can be sent
(log entries 1 to 3; R38, R39, R41, R58, R70, R73, R82, R87, R115, R155, R184). -/

namespace Sys2Proof.Machine

/-- A deadline has passed. -/
def passed (now : Nat) (d : Option Nat) : Bool := d.any fun x => x ≤ now

/-- What a request has to send or to expire.  Where its deadline and its staging wait limit have passed at one moment the tick
brings the deadline alone: the model's choice (R41, log entry 3). -/
def requestEvents (now : Nat) (q : Request) : List Instr :=
  (if q.state = .completing then
    (if q.segments.all fun g => g.state != .inService then [Instr.statusSend q.initiator q.tag] else [])
  else if passed now q.deadline then [.requestDeadlineExpiry q.initiator q.tag]
  else if q.state = .stagingWait && passed now q.stagingExpiry then [.stagingWaitLimitExpiry q.initiator q.tag]
  else [])

/-- A line that has reached its age limit. -/
def lineEvents (now : Nat) (l : GatherLine) : List Instr :=
  if l.state = .filling && l.due.isNone && l.ageExpiry ≤ now then [.lineAgeLimitExpiry l.surface l.index] else []

/-- The limits of drive `d` that have passed. -/
def driveEvents (now : Nat) (j : Jukebox) (d : Fin 4) : List Instr :=
  let x := j.drive d
  (if passed now x.dwell then [Instr.dwellDeadlineExpiry d] else []) ++
    if passed now x.limit then
      match x.state with
      | .loading => [.spinUpLimit d]
      | .unloading => [.spinDownLimit d]
      | .fault => [.ejectAttemptLimit d]
      | _ => []
    else []

/-- The limits of the picker and the door that have passed. -/
def pickerEvents (now : Nat) (p : Picker) : List Instr :=
  (if passed now p.stepLimit then [Instr.pickerStepLimit] else []) ++
    if passed now p.settleEnd then [.settleEnd] else []

/-- The events the part itself brings at the moment `now`: the picker's and the drives' first, so that no limit that has
passed meets a step or a dwell begun at the same moment (R82; log entry 3). -/
def Jukebox.ownEvents (now : Nat) (j : Jukebox) : List Instr :=
  pickerEvents now j.picker ++ allDrives.flatMap (driveEvents now j) ++ j.lines.flatMap (lineEvents now) ++
    j.table.flatMap (requestEvents now)

/-- One ms passes: running time advances and the events of that moment are queued; a part without power stands still
(R184). -/
def tick (s : State) : State :=
  if s.powered then
    { s with
      now := s.now + 1, jb := { s.jb with bus := [] }
      pending := s.pending ++ s.jb.ownEvents (s.now + 1) }
  else s

end Sys2Proof.Machine
end

