-- ==== Sys2Proof/Machine/Fee.lean ====
section
/-! DEFINITION. The fee unit: fees, tallies, generations, tariff updates and the day close (R129 to R149). -/

namespace Sys2Proof.Machine

/-! ## The fee of one copy (R132 to R134) -/

/-- A quotient rounded up. -/
def ceilDiv (a b : Nat) : Nat := (a + b - 1) / b

/-- The pages of `b` billable blocks (R133 step 1). -/
def Tariff.pages (t : Tariff) (b : Nat) : Nat := ceilDiv b t.page

/-- The gross fee of a copy of `pages` pages (R133 steps 2 to 4). -/
def ClassEntry.gross (c : ClassEntry) (pages : Nat) : Nat := c.f + ceilDiv (pages - c.n) c.g * c.k

/-- The fee of a copy of `pages` pages (R133 steps 5 and 6). -/
def ClassEntry.fee (c : ClassEntry) (pages : Nat) : Nat :=
  let surcharged := (c.gross pages * (100 + c.s) + 50) / 100
  if c.c = 0 then surcharged else min surcharged c.c

/-- The entry of class `c` of a tariff (R131). -/
def Tariff.entry (t : Tariff) (c : Nat) : ClassEntry := t.classes.toList.getD (c - 1) ⟨0, 0, 1, 0, 0, 0⟩

/-- The tariff of a generation: the active one or the previous one (R132). -/
def FeeUnit.tariffOf (f : FeeUnit) (gen : BitVec 8) : Tariff := if gen = f.generation then f.active else f.previous

/-! ## Tallies and side counts (R135, R136) -/

/-- A sum that stops at 4,294,967,295 (R135, R136). -/
def satAdd (a b : Nat) : Nat := min Config.maxCount (a + b)

/-- A tally record takes one charge (R135). -/
def Tally.charge (fee pages : Nat) (t : Tally) : Tally where
  amount := satAdd t.amount fee
  pages := satAdd t.pages pages
  requests := satAdd t.requests 1
  saturated := t.saturated || Config.maxCount < t.amount + fee || Config.maxCount < t.pages + pages ||
    Config.maxCount < t.requests + 1

/-- The tally record of an initiator and a class 1..7 (R135). -/
def FeeUnit.tally (f : FeeUnit) (i : Fin 7) (c : Nat) : Tally := f.tallies[i].toList.getD (c - 1) ⟨0, 0, 0, false⟩

/-- Change the tally record of an initiator and a class. -/
def FeeUnit.onTally (f : FeeUnit) (i : Fin 7) (c : Nat) (g : Tally → Tally) : FeeUnit :=
  { f with tallies := f.tallies.set i (f.tallies[i].setIfInBounds (c - 1) (g (f.tally i c))) }

/-- Change the side counts of an initiator. -/
def FeeUnit.onSides (f : FeeUnit) (i : Fin 7) (g : SideCounts → SideCounts) : FeeUnit :=
  { f with sides := f.sides.set i (g f.sides[i]) }

/-- What the fee unit does at the send of a request's status (R129). -/
def FeeUnit.bill (q : Request) (f : FeeUnit) : FeeUnit :=
  if q.kind = .read && 1 ≤ q.feeClass then
    if q.status = .good then
      let t := f.tariffOf q.generation
      let pages := t.pages q.billable
      let f := if pages = 0 then f
        else f.onTally q.initiator q.feeClass (Tally.charge ((t.entry q.feeClass).fee pages) pages)
      f.onSides q.initiator fun x => { x with staged := satAdd x.staged q.staged }
    else f.onSides q.initiator fun x => { x with failed := satAdd x.failed 1 }
  else f

/-! ## Generations and updates (R138 to R141) -/

/-- A request is stamped with the active generation at its acceptance (R138). -/
def FeeUnit.enter (f : FeeUnit) : FeeUnit := { f with activeCount := f.activeCount + 1 }

/-- An update takes effect (R139). -/
def FeeUnit.takeEffect (f : FeeUnit) : FeeUnit :=
  { f with
    previous := f.active, active := f.pending, generation := f.generation + 1, update := .current
    previousCount := f.activeCount, activeCount := 0 }

/-- An update event (R139); one that finds an update DEFERRED adds none (R147). -/
def FeeUnit.updateEvent (f : FeeUnit) : FeeUnit :=
  match f.update with
  | .deferred => f
  | .current => if f.previousCount = 0 then f.takeEffect else { f with update := .deferred }

/-- A request of a generation leaves the table; the last one of the previous generation releases a deferred update
(R138, R140). -/
def FeeUnit.leave (gen : BitVec 8) (f : FeeUnit) : FeeUnit :=
  if gen = f.generation then { f with activeCount := f.activeCount - 1 }
  else
    let f := { f with previousCount := f.previousCount - 1 }
    if f.update = .deferred && f.previousCount = 0 then f.takeEffect else f

/-- Every request has left the table at once, by a front bus reset or a power-on: both counts are 0 and a deferred update
takes effect (R138, R141). -/
def FeeUnit.emptied (f : FeeUnit) : FeeUnit :=
  let f := { f with activeCount := 0, previousCount := 0 }
  match f.update with
  | .deferred => f.takeEffect
  | .current => f

/-! ## The tariff commands (R142 to R144) -/

/-- The nearest value of a range (R172). -/
def clamp (lo hi x : Nat) : Nat := max lo (min hi x)

/-- A class entry as SET TARIFF stores it (R142). -/
def storedEntry (f n g k s c : Nat) : ClassEntry := ⟨f, n, clamp 1 16 g, k, clamp 0 200 s, c⟩

/-- SET TARIFF on the fee unit, and whether a value was clamped (R142). -/
def FeeUnit.setTariff (f : FeeUnit) (cls fee n g k s c : Nat) : Except Reason (FeeUnit × Bool) :=
  if cls < 1 || 7 < cls then .error .badValue
  else if f.update = .deferred then .error .updatePending
  else
    .ok ({ f with
        pending := { f.pending with
          classes := f.pending.classes.setIfInBounds (cls - 1) (storedEntry fee n g k s c) } },
      clamp 1 16 g != g || clamp 0 200 s != s)

/-- SET PAGE SIZE on the fee unit (R143). -/
def FeeUnit.setPage (f : FeeUnit) (p : Nat) : Except Reason (FeeUnit × Bool) :=
  if f.update = .deferred then .error .updatePending
  else .ok ({ f with pending := { f.pending with page := clamp 1 64 p } }, clamp 1 64 p != p)

/-- APPLY TARIFF on the fee unit (R144). -/
def FeeUnit.apply (f : FeeUnit) : Except Reason (FeeUnit × Bool) :=
  if f.update = .deferred then .error .updatePending else .ok (f.updateEvent, false)

/-! ## The day close (R145 to R149) -/

/-- A request counts in the in-flight count of a close (R145). -/
def Request.inFlight (q : Request) : Bool := q.kind = .read && 1 ≤ q.feeClass

/-- The close of a day with `n` billed READs in the table (R146). -/
def FeeUnit.close1 (n : Nat) (f : FeeUnit) : FeeUnit :=
  { f with
    close := { state := .unread, day := f.day, generation := f.generation, tallies := f.tallies, sides := f.sides
               inFlight := n, tallyLost := f.tallyLost }
    tallies := zeroTallies, sides := zeroSides, tallyLost := false, day := f.day + 1 }

/-- CLOSE DAY on the fee unit (R146, R147). -/
def FeeUnit.closeDay (n : Nat) (apply : Bool) (f : FeeUnit) : Except Reason (FeeUnit × Bool) :=
  if f.close.state = .unread then .error .closeUnread
  else .ok (if apply then (f.close1 n).updateEvent else f.close1 n, false)

/-- ACK CLOSE on the fee unit (R148). -/
def FeeUnit.ackClose (day : BitVec 16) (f : FeeUnit) : Except Reason (FeeUnit × Bool) :=
  if f.close.state != .unread then .error .state
  else if f.close.day != day then .error .badValue
  else .ok ({ f with close := { f.close with state := .acknowledged } }, false)

end Sys2Proof.Machine
end

