-- ==== Sys2Proof/Machine/Orders.lean ====
section
/-! DEFINITION. The exchange order queue and the start of picker steps (R73, R76 to R79, R84). -/

namespace Sys2Proof.Machine

/-- The first step of an order (R76). -/
def Order.firstStep (o : Order) : Nat :=
  match o.kind, o.outgoing with
  | .exchange, none => 4
  | _, _ => 1

/-- Place a new order in the queue: an express order goes behind the last express QUEUED order and the current order,
any other at the tail (R77). -/
def insertOrder (o : Order) : List Order → List Order
  | [] => [o]
  | x :: xs => if o.express && x.state = .queued && !x.express then o :: x :: xs else x :: insertOrder o xs

/-- A drive begins to unload: its mounted surface is cleared and its spin-down limit starts (R73).  A drive in FAULT
has its platter at the mouth already, or its eject attempt takes the place of the unload (R154, R155). -/
def beginUnload (e : Env) (d : Fin 4) (j : Jukebox) : Jukebox :=
  j.onDrive d fun x =>
    if x.state = .fault || x.platter.isNone then x
    else { x with state := .unloading, mounted := none, dwell := none, limit := some (e.now + Config.driveLimit) }

/-- The picker stands at drive `d` (R78). -/
def Picker.standsAt (p : Picker) (d : Fin 4) : Bool := p.position = some (.drive d) && !p.midway

/-- Give the current step a fresh step limit; none runs while the picker is HALTED or in FAULT (R82). -/
def freshLimit (e : Env) (j : Jukebox) : Jukebox :=
  j.onPicker fun p =>
    { p with
      stepLimit := if p.state = .busy || p.state = .inventory then some (e.now + Config.stepLimit) else none }

/-- End step 1 when the picker stands at the drive and the drive has ejected its platter: step 2 begins (R78).  A
picker at the drive makes no move, so no limit runs while it waits. -/
def checkStep1 (e : Env) (j : Jukebox) : Jukebox :=
  match j.runningOrder with
  | some o =>
    if o.step = 1 && j.picker.standsAt o.drive then
      if (j.drive o.drive).ejected then
        freshLimit e (j.onOrder o.drive fun o => { o with step := 2 })
      else j.onPicker fun p => { p with stepLimit := none }
    else j
  | none => j

/-- The running order goes on with step `n`, with a fresh step limit (R76, R82). -/
def toStep (e : Env) (d : Fin 4) (n : Nat) (j : Jukebox) : Jukebox :=
  freshLimit e (j.onOrder d fun o => { o with step := n })

/-- The first QUEUED order becomes RUNNING at its first step when the picker is PARKED (R77). -/
def startNext (e : Env) (j : Jukebox) : Jukebox :=
  if j.picker.state = .parked then
    match j.orders with
    | [] => j
    | o :: rest =>
      let o := { o with state := .running, step := o.firstStep }
      let j := freshLimit e ({ j with orders := o :: rest }.onPicker fun p => { p with state := .busy })
      if o.step = 1 then checkStep1 e (beginUnload e o.drive j) else j
  else j

/-- A new order joins the queue, and starts at once when the picker is PARKED (R77). -/
def joinOrders (e : Env) (o : Order) (j : Jukebox) : Jukebox :=
  startNext e { j with orders := insertOrder o j.orders }

/-- Drive `d` places the order that mounts surface `target` (R54, R63, R72, R76): a turnover when the platter is in the
drive, an exchange otherwise.  A RETURN HOME that still names the drive becomes that exchange instead (R84, log
entry 15).  A QUEUED order shows the first step of its kind: the model's choice (log entry 36). -/
def placeOrder (e : Env) (d : Fin 4) (target : Nat) (express : Bool) (j : Jukebox) : Jukebox :=
  let p := platterOf target
  match j.orderOf d with
  | some _ =>
    j.onOrder d fun o =>
      { o with kind := .exchange, incoming := some p, wanted := some (sideOf target), express := express,
               cancelled := false }
  | none =>
    let out := (j.drive d).platter
    joinOrders e
      { drive := d, kind := if out = some p then .turnover else .exchange, outgoing := out, incoming := some p,
        wanted := some (sideOf target), express := express, step := if out.isSome then 1 else 4, state := .queued,
        forOffline := false, cancelled := false } j

/-- Drive `d` places a RETURN HOME for its platter at the tail of the queue (R74, R155). -/
def placeReturnHome (e : Env) (d : Fin 4) (forOffline : Bool) (j : Jukebox) : Jukebox :=
  joinOrders e
    { drive := d, kind := .returnHome, outgoing := (j.drive d).platter, incoming := none, wanted := none,
      express := false, step := 1, state := .queued, forOffline := forOffline, cancelled := false } j

/-- The picker has nothing more to run: it becomes PARKED where it stands and starts the first QUEUED order (R77,
R81).  A picker HALTED or in FAULT stays so (R83, R158), and one that carries a platter home in recovery goes on with that
(R159, R161). -/
def pickerDone (e : Env) (j : Jukebox) : Jukebox :=
  if j.picker.state = .busy && !j.picker.recovering then
    startNext e (j.onPicker fun p => { p with state := .parked, stepLimit := none })
  else j

/-- The order naming drive `d` leaves the queue. -/
def dropOrder (d : Fin 4) (j : Jukebox) : Jukebox := { j with orders := j.orders.filter fun o => o.drive != d }

/-- The order naming drive `d` leaves the queue; when it was the current order the picker is done with it. -/
def removeOrder (e : Env) (d : Fin 4) (j : Jukebox) : Jukebox :=
  match j.orderOf d with
  | none => j
  | some o => if o.state = .queued then dropOrder d j else pickerDone e (dropOrder d j)

/-- A move of the current order is broken off where the picker stands (log entry 17). -/
def breakMove (j : Jukebox) : Jukebox := j.onPicker fun p => { p with midway := true }

/-- The order naming drive `d` becomes a RETURN HOME: its incoming platter, wanted side and express flag are cleared
(R83, R154). -/
def becomeReturnHome (d : Fin 4) (j : Jukebox) : Jukebox :=
  j.onOrder d fun o => { o with kind := .returnHome, incoming := none, wanted := none, express := false }

/-- Platter `p` is bound to drive `d`: an order brings it into `d`, or it is the platter of `d`'s parked context
(R53, R62). -/
def Jukebox.boundTo (j : Jukebox) (p : Nat) (d : Fin 4) : Bool :=
  (j.orders.any fun o => o.drive = d && o.incoming = some p) ||
    ((j.drive d).parked.any fun c => platterOf c.surface = p)

/-- Platter `p` is bound to a drive other than `d` (R53). -/
def Jukebox.boundElsewhere (j : Jukebox) (p : Nat) (d : Fin 4) : Bool :=
  allDrives.any fun x => x != d && j.boundTo p x

/-- The nominal duration in ms of a move that begins at a position (section 4, R82): between two drives, or between a
slot and a drive or two slots; a move from no known position is taken as one between a slot and a drive. -/
def nominalMove (origin : Option Position) (goal : Position) : Nat :=
  match origin, goal with
  | some (.drive a), .drive b => if a = b then 0 else 1000
  | _, _ => 3000

end Sys2Proof.Machine
end

