-- ==== Sys2Proof/Machine/Segments.lean ====
section
/-! DEFINITION. The ends of segments and requests: delivery, roll-up and completion (R33 to R37, R41). -/

namespace Sys2Proof.Machine

/-- The roll-up over the segments that are DONE: the status of the lowest-addressed one that is not GOOD (R37). -/
def rollUp (segments : List Segment) : Status :=
  match segments.find? fun g => g.state = .done && g.status != .good with
  | some g => g.status
  | none => .good

/-- An ACTIVE request takes the roll-up, and is COMPLETING when every segment is DONE (R33, R37).  A request in
COMPLETING has a fixed status. -/
def Request.rolled (q : Request) : Request :=
  if q.state = .active then
    { q with
      status := rollUp q.segments
      state := if q.segments.all fun g => g.state = .done then .completing else .active }
  else q

/-- The volume address of block `b` of a segment of a request (R35). -/
def Request.address (q : Request) (g : Segment) (b : Nat) : Nat :=
  q.window * Config.windowSpan + g.surface * Config.surfaceBlocks + b

/-- A segment that is DONE with its own outcome; its current count is 0 when all of it was served or written (R29). -/
def Segment.finished (st : Status) (g : Segment) : Segment :=
  { g with state := .done, status := st, current := if st = .good then 0 else g.current, kept := [] }

/-- A request segment becomes DONE with its own outcome (R34).  A read segment's served blocks are delivered and its
tallies join the request's counts (R35, R102); the status is rolled up (R37). -/
def finishSegment (r : SegRef) (st : Status) (j : Jukebox) : Jukebox :=
  match j.segment r with
  | none => j
  | some (q, g) =>
    let j := j.onRequest r.initiator r.tag fun q =>
      { q.onSegment r.index (Segment.finished st) with
        delivered := q.delivered + g.served
        billable := q.billable + g.billable
        staged := q.staged + g.staged : Request }.rolled
    if g.kept.isEmpty then j else j.send (.data r.initiator r.tag (q.address g g.first) g.kept)

/-- A segment withdrawn or stopped by its request's deadline is DONE TIMEOUT; nothing of it is delivered and its tallies
are discarded (R35, R39, R102). -/
def Segment.timedOut (g : Segment) : Segment :=
  { g with state := .done, status := .timeout, served := 0, billable := 0, staged := 0, kept := [] }

/-- Stop a segment of a request that has met its deadline (R39, R71 case 1). -/
def stopSegment (r : SegRef) (j : Jukebox) : Jukebox := j.onSegment r Segment.timedOut

/-! ## The source of a block (R90, R91) -/

/-- Block `b` of a surface as its gather line holds it (R91). -/
def Jukebox.stagedBlock (j : Jukebox) (surface b : Nat) : Block :=
  match j.line surface (b / Config.lineBlocks) with
  | some l => blockAt l.data (b - l.lo)
  | none => Config.freeBlock b

/-- Block `b` of a surface as its cached retain line holds it (R90). -/
def cachedBlock (cache : List RetainLine) (surface b : Nat) : Block :=
  match retainFind cache surface (b / Config.lineBlocks) with
  | some l => blockAt l.data (b % Config.lineBlocks)
  | none => Config.freeBlock b

/-- The source of block `b` of a read segment, by the table of R90. -/
def Jukebox.source (j : Jukebox) (g : Segment) (b : Nat) : Source :=
  match g.htype with
  | .sealed => .platter
  | .direct => .platter
  | .retain =>
    if (retainFind j.retain g.surface (b / Config.lineBlocks)).isSome then .cached (cachedBlock j.retain g.surface b)
    else .platter
  | .gather =>
    if b < (j.surface g.surface).sealMark then .platter
    else if b < (j.surface g.surface).appendPoint then .staged (j.stagedBlock g.surface b)
    else .nothing
  | .void => .nothing

/-- The sources of the next `n` blocks of a read segment. -/
def Jukebox.sources (j : Jukebox) (g : Segment) (n : Nat) : List Source :=
  (List.range n).map fun k => j.source g (g.next + k)

/-- A request ends with a status before its segments do; those become DONE with that status (R37, R41, R111). -/
def Request.endedWith (q : Request) (st : Status) : Request :=
  { q with
    state := .completing
    status := st
    segments := q.segments.map fun g => if g.state = .done then g else { g with state := .done, status := st } }

end Sys2Proof.Machine
end

