-- ==== Sys2Proof/Machine/Arbiter.lean ====
section
/-! DEFINITION. The service arbiter: ranking, eligibility, dispatch, push, pull, sweep, dwell, the express cut,
preemption and parked contexts (R45 to R65, R74). -/

namespace Sys2Proof.Machine

/-! ## Ranking -/

/-- The order of the back-office tier (R47). -/
def backOrder : Nat → List Level
  | 1 => [.staff, .flush, .write]
  | 2 => [.write, .staff, .flush]
  | 3 => [.write, .flush, .staff]
  | 4 => [.flush, .staff, .write]
  | 5 => [.flush, .write, .staff]
  | _ => [.staff, .write, .flush]

/-- The counter tier ranks above the back-office tier (R47, R48). -/
def counterFirst (t : Settings) (last : Tier) : Bool :=
  match t.tierCode with
  | 1 => false
  | 2 => last = .backOffice
  | _ => true

/-- The ranking before promotion (R47, R48). -/
def baseRanking (t : Settings) (last : Tier) : List Level :=
  let counter : List Level := [.express, .counter]
  if counterFirst t last then counter ++ backOrder t.backCode else backOrder t.backCode ++ counter

/-- The ranking of the five levels, highest first (R47 to R49). -/
def ranking (t : Settings) (last : Tier) (free : Nat) : List Level :=
  if free ≤ t.lowWater then
    [.express, .flush] ++ (baseRanking t last).filter fun l => l != .express && l != .flush
  else baseRanking t last

/-- The levels that can be dispatched, highest ranked first (R50, R55). -/
def dispatchable (e : Env) (j : Jukebox) : List Level :=
  if e.settings.dispatch then
    (ranking e.settings j.lastTier j.freeLines).filter fun l => e.settings.enables l
  else []

/-! ## The lists (R51) -/

/-- A queued drive segment: its name, level, target, and the blocks of its next pass. -/
structure Item where
  ref : WorkRef
  level : Level
  target : Nat
  size : Nat
  deriving DecidableEq, Repr

/-- The segments of a request that stand in its level's list.  R26 and R51 give both the same age and no tie rule; that
segment 0 stands first, and so is taken first, is the model's choice (log entry 13). -/
def Request.items (q : Request) : List Item :=
  if q.state = .active then
    (q.segments.zipIdx.filter fun x => x.1.kind = .drive && x.1.state = .queued).map fun x =>
      { ref := .request ⟨q.initiator, q.tag, x.2⟩, level := q.level, target := x.1.target q.kind, size := x.1.current }
  else []

/-- The flush range of a line as it stands (R117). -/
def Jukebox.rangeNow (j : Jukebox) (surface line : Nat) : Nat × Nat :=
  let r := j.surface surface
  (max r.sealMark (line * Config.lineBlocks), min r.appendPoint (line * Config.lineBlocks + Config.lineBlocks))

/-- The range of a flush segment: the one fixed at its dispatch, or the one a dispatch now would fix (R117). -/
def Jukebox.flushRange (j : Jukebox) (f : Flush) : Nat × Nat := f.range.getD (j.rangeNow f.surface f.line)

/-- A queued flush segment as an item. -/
def Jukebox.flushItem (j : Jukebox) (f : Flush) : Item :=
  let r := j.flushRange f
  { ref := .flush f.surface f.line, level := .flush, target := f.target, size := r.2 - r.1 }

/-- The list of a level, oldest first (R51). -/
def Jukebox.queued (j : Jukebox) : Level → List Item
  | .flush => (j.flushes.filter fun f => f.state = .queued).map j.flushItem
  | l => (j.table.flatMap Request.items).filter fun x => x.level = l

/-- The item of a segment that stands in a list. -/
def Jukebox.itemOf (j : Jukebox) : WorkRef → Option Item
  | .request r =>
    (j.request r.initiator r.tag).bind fun q => q.items.find? fun x => x.ref = .request r
  | .flush s n => ((j.flush s).filter fun f => f.line = n && f.state = .queued).map j.flushItem

/-! ## Free drives and eligible segments (R52, R53) -/

/-- A segment with a target is eligible for drive `d` (R53). -/
def Jukebox.eligible (j : Jukebox) (target : Nat) (d : Fin 4) : Bool :=
  let p := platterOf target
  j.reachable p && !j.boundElsewhere p d &&
    match (j.platter p).location with
    | some .slot => true
    | some (.drive x) => x = d && (j.drive d).mounted.any fun m => platterOf m = p
    | _ => false

/-- An order that inserts a platter names drive `d`: when `d` holds no segment, that order has gripped its platter and
runs to its end (R40, R83). -/
def Jukebox.awaitsInsert (j : Jukebox) (d : Fin 4) : Bool := (j.orderOf d).any fun o => o.kind != .returnHome

/-- Drive `d` can take a segment at all: it is in service, has no segment and no parked context, and is EMPTY or
READY with no platter on its way (R52, R74, R83). -/
def Jukebox.idle (j : Jukebox) (d : Fin 4) : Bool :=
  let x := j.drive d
  !j.inventoryRuns && !j.awaitsInsert d && !x.offlineFlag && x.work.isNone && x.parked.isNone &&
    (x.state = .empty || x.state = .ready)

/-- Drive `d` is free for a segment with a target (R52). -/
def Jukebox.freeFor (j : Jukebox) (target : Nat) (d : Fin 4) : Bool :=
  j.idle d && ((j.drive d).dwell.isNone || (j.drive d).mounted = some target)

/-! ## Dispatch (R54, R61, R117) -/

/-- Pending preemptions that name a segment are withdrawn (R61). -/
def withdrawNaming (r : SegRef) (j : Jukebox) : Jukebox :=
  { j with drives := j.drives.map fun x => if x.preempt = some r then { x with preempt := none } else x }

/-- Drive `d` begins a burst for a request: the front port fetches its data when it writes (R36), and the sources of its
blocks are decided when it reads (R90, log entry 11). -/
def beginBurst (d : Fin 4) (j : Jukebox) : Jukebox :=
  let x := j.drive d
  match x.work with
  | some w =>
    match w.ref, w.dropped with
    | .request r, none =>
      match j.segment r with
      | some (q, g) =>
        match q.kind with
        | .write =>
          j.send (.fetch r.initiator r.tag (q.address g (g.end - x.left)) (min Config.burstBlocks x.left))
        | .read =>
          j.onDrive d fun x =>
            { x with work := some { w with reached := j.sources g (min Config.burstBlocks x.left) } }
      | none => j
    | _, _ => j
  | none => j

/-- Drive `d` enters TRANSFER and begins a burst (R54, R71). -/
def enterTransfer (d : Fin 4) (j : Jukebox) : Jukebox :=
  beginBurst d (j.onDrive d fun x => { x with state := .transfer })

/-- Drive `d` goes to work on the surface of its pass: at once when it is mounted, else through an order (R54, R63). -/
def seek (e : Env) (d : Fin 4) (target : Nat) (express : Bool) (j : Jukebox) : Jukebox :=
  if (j.drive d).mounted = some target then enterTransfer d j else placeOrder e d target express j

/-- The pass a drive begins with for a segment: its side and the failed verifies counted so far (R69, R118, R120, R152). -/
def Jukebox.firstPass (j : Jukebox) : WorkRef → Option Pass
  | .request r => (j.segment r).bind fun qg =>
    match qg.1.kind with
    | .read => none
    | .write => some ⟨if qg.2.primaryDone then .mirror else .primary, qg.2.failedVerify⟩
  | .flush s n => (j.flush s).map fun f =>
    ⟨if f.primaryDone then .mirror else .primary, ((j.line s n).map fun l => l.attempts).getD 0⟩

/-- A segment that leaves its list becomes IN SERVICE; a flush has its range fixed and its line frozen (R54, R117). -/
def takeFromList (w : WorkRef) (j : Jukebox) : Jukebox :=
  match w with
  | .request r => withdrawNaming r (j.onSegment r fun g => { g with state := .inService })
  | .flush s n =>
    (j.onFlush s fun f => { f with state := .inService, range := some (j.flushRange f) }).onLine s n
      fun l => { l with state := .flushing }

/-- Dispatch of a segment to drive `d` (R54). -/
def dispatch (e : Env) (d : Fin 4) (it : Item) (j : Jukebox) : Jukebox :=
  let pass := j.firstPass it.ref
  let j := takeFromList it.ref { j with lastTier := it.level.tier }
  let j := j.onDrive d fun x =>
    { x with work := some ⟨it.ref, it.level, [], none, none⟩, left := it.size, pass := pass, dwell := none, preempt := none }
  seek e d it.target (it.level = .express) j

/-! ## Push, express cut and preemption (R56, R59, R60) -/

/-- The drive a push chooses among several (R56). -/
def Jukebox.choose (j : Jukebox) (target : Nat) (ds : List (Fin 4)) : Option (Fin 4) :=
  (ds.find? fun d => (j.drive d).mounted = some target).or
    ((ds.find? fun d => (j.drive d).platter = some (platterOf target)).or
      ((ds.find? fun d => (j.drive d).state = .empty).or
        (leastBy (fun d => (j.drive d).lastUse) ds)))

/-- The drives free for a segment for which it is eligible (R56). -/
def Jukebox.candidates (j : Jukebox) (target : Nat) : List (Fin 4) :=
  allDrives.filter fun d => j.freeFor target d && j.eligible target d

/-- The dwelling drive the express cut takes (R59). -/
def Jukebox.cutDrive (j : Jukebox) (target : Nat) : Option (Fin 4) :=
  leastBy (fun d => (j.drive d).lastUse)
    (allDrives.filter fun d => j.idle d && (j.drive d).dwell.isSome && j.eligible target d)

/-- Drive `d` is a candidate victim for an EXPRESS segment with a target (R60). -/
def Jukebox.victim (j : Jukebox) (target : Nat) (d : Fin 4) : Bool :=
  let x := j.drive d
  x.state = .transfer && (x.work.any fun w => w.level.tier = .backOffice) && x.parked.isNone && x.preempt.isNone &&
    !x.offlineFlag && j.eligible target d

/-- Preemption is considered for an EXPRESS segment that stands in its list (R60). -/
def considerPreempt (e : Env) (r : SegRef) (j : Jukebox) : Jukebox :=
  match j.itemOf (.request r) with
  | some it =>
    if it.level = .express && e.settings.preempt && e.settings.dispatch && e.settings.enables .express then
      match greatestBy (fun d => (j.drive d).left) (allDrives.filter fun d => j.victim it.target d) with
      | some d => j.onDrive d fun x => { x with preempt := some r }
      | none => j
    else j
  | none => j

/-- The push of a segment that has joined a list (R56). -/
def push (e : Env) (w : WorkRef) (j : Jukebox) : Jukebox :=
  match j.itemOf w with
  | none => j
  | some it =>
    if e.settings.enables it.level && e.settings.dispatch then
      match j.choose it.target (j.candidates it.target) with
      | some d => dispatch e d it j
      | none =>
        if it.level = .express then
          match j.cutDrive it.target with
          | some d => dispatch e d it j
          | none => match w with
            | .request r => considerPreempt e r j
            | .flush _ _ => j
        else j
    else j

/-! ## Pull and sweep (R55, R56, R57) -/

/-- The segment a level offers drive `d`: the oldest for its mounted surface, else the oldest eligible (R55). -/
def Jukebox.offer (j : Jukebox) (d : Fin 4) (l : Level) : Option Item :=
  let items := (j.queued l).filter fun x => j.eligible x.target d
  (items.find? fun x => (j.drive d).mounted = some x.target).or items.head?

/-- A full pull by drive `d` (R55). -/
def pull (e : Env) (d : Fin 4) (j : Jukebox) : Jukebox :=
  if j.idle d then
    match (dispatchable e j).findSome? (j.offer d) with
    | some it => dispatch e d it j
    | none => j
  else j

/-- The segment a restricted pull takes: of the mounted surface, or EXPRESS (R57). -/
def Jukebox.restrictedOffer (j : Jukebox) (d : Fin 4) (l : Level) : Option Item :=
  (j.queued l).find? fun x =>
    j.eligible x.target d && ((j.drive d).mounted = some x.target || x.level = .express)

/-- One placement of a sweep: the oldest segment of the highest-ranked level that a free drive can take (R56). -/
def sweepItem (e : Env) (j : Jukebox) : Option (Fin 4 × Item) :=
  (dispatchable e j).findSome? fun l =>
    (j.queued l).findSome? fun it => (j.choose it.target (j.candidates it.target)).map fun d => (d, it)

/-- Placements of a sweep, at most `n`: each occupies a drive, so four are enough (R56). -/
def sweepN (e : Env) : Nat → Jukebox → Jukebox
  | 0, j => j
  | n + 1, j =>
    match sweepItem e j with
    | some (d, it) => sweepN e n (dispatch e d it j)
    | none => j

/-- A sweep (R56). -/
def sweep (e : Env) (j : Jukebox) : Jukebox := sweepN e 4 j

/-- A sweep when platter `p` is in its slot: a binding of it has ended (R53, R83, R153, R154). -/
def sweepIfInSlot (e : Env) (p : Option Nat) (j : Jukebox) : Jukebox :=
  match p with
  | some p => if (j.platter p).location = some .slot then sweep e j else j
  | none => j

/-! ## The end of a segment (R57, R63, R74) -/

/-- Drive `d` takes its parked context up again (R63). -/
def resume (e : Env) (d : Fin 4) (c : Parked) (j : Jukebox) : Jukebox :=
  let j := match c.ref with
    | .request r => j.onSegment r fun g => { g with state := .inService }
    | .flush s _ => j.onFlush s fun f => { f with state := .inService }
  let j := j.onDrive d fun x =>
    { x with work := some ⟨c.ref, c.level, [], none, none⟩, left := c.remaining, pass := c.pass, parked := none, dwell := none }
  seek e d c.surface false j

/-- The further EXPRESS segment for its mounted surface that a drive with a parked context takes first (R63). -/
def Jukebox.furtherExpress (e : Env) (j : Jukebox) (d : Fin 4) : Option Item :=
  let x := j.drive d
  if e.settings.dispatch && e.settings.enables .express && !x.offlineFlag && !j.inventoryRuns && x.state = .ready then
    (j.queued .express).find? fun it => x.mounted = some it.target && j.eligible it.target d
  else none

/-- Drive `d` becomes OFFLINE (R74). -/
def goOffline (d : Fin 4) (j : Jukebox) : Jukebox :=
  j.onDrive d fun x => { x with state := .offline, offlineFlag := false }

/-- A drive with its offline flag set, no segment and no parked context leaves service: an EMPTY drive becomes OFFLINE,
a READY drive places a RETURN HOME, but not while inventory runs (R74, R164).  An EMPTY drive waits for the end of an order
that names it still when that is the RETURN HOME of a cancellation (R164) or one of R74, or an order with its incoming platter
on the way (log entries 16 and 26). -/
def leaveService (e : Env) (d : Fin 4) (j : Jukebox) : Jukebox :=
  match (j.drive d).state with
  | .empty =>
    if (j.orderOf d).any fun o => o.cancelled || o.forOffline || o.kind != .returnHome then j else goOffline d j
  | .ready => if j.inventoryRuns || (j.orderOf d).isSome then j else placeReturnHome e d true j
  | _ => j

/-- A drive that has ended a segment and holds no parked context makes a restricted pull, then dwells, or with a dwell
time of 0 makes a full pull (R57). -/
def endOfSegment (e : Env) (d : Fin 4) (j : Jukebox) : Jukebox :=
  match (dispatchable e j).findSome? (j.restrictedOffer d) with
  | some it => if j.idle d then dispatch e d it j else j
  | none =>
    if e.settings.dwell = 0 then pull e d j
    else j.onDrive d fun x => { x with dwell := some (e.now + e.settings.dwell) }

/-- What drive `d` does when it holds no segment: it goes back to its parked context (R63), leaves service (R74), or
looks for work; `ended` says that it has just ended a segment on a mounted surface (R57), and otherwise it makes a
full pull (R55). -/
def driveFree (e : Env) (d : Fin 4) (ended : Bool) (j : Jukebox) : Jukebox :=
  let x := j.drive d
  if x.work.isSome || j.awaitsInsert d || !(x.state = .empty || x.state = .ready) then j
  else match x.parked with
    | some c =>
      match j.furtherExpress e d with
      | some it => dispatch e d it j
      | none => resume e d c j
    | none =>
      if x.offlineFlag then leaveService e d j
      else if ended && x.state = .ready then endOfSegment e d j
      else pull e d j

/-- The EXPRESS segment of a drive's pending preemption, when the drive can still take it (R61, log entry 14). -/
def Jukebox.preemptor (j : Jukebox) (d : Fin 4) : Option Item :=
  ((j.drive d).preempt.bind fun r => j.itemOf (.request r)).filter fun it => j.eligible it.target d

/-- Drive `d` lets its segment go and is READY (R71). -/
def release (d : Fin 4) (j : Jukebox) : Jukebox :=
  j.onDrive d fun x => { x with state := .ready, work := none, pass := none, left := 0 }

/-- Drive `d`, just released by its segment, dispatches the EXPRESS segment of a pending preemption (R61), or goes on
under R57 or R63. -/
def afterSegment (e : Env) (d : Fin 4) (j : Jukebox) : Jukebox :=
  match j.preemptor d with
  | some it => dispatch e d it j
  | none => driveFree e d true (j.onDrive d fun x => { x with preempt := none })

/-- Drive `d` parks the remainder of its pass (R62). -/
def park (d : Fin 4) (j : Jukebox) : Jukebox :=
  let x := j.drive d
  match x.work, x.mounted with
  | some w, some m =>
    let next := match w.ref with
      | .request r => match j.segment r with
        | some (_, g) => g.end - x.left
        | none => 0
      | .flush s _ => match j.flush s with
        | some f => (j.flushRange f).2 - x.left
        | none => 0
    let j := match w.ref with
      | .request r => j.onSegment r fun g => { g with state := .parked }
      | .flush s _ => j.onFlush s fun f => { f with state := .parked }
    j.onDrive d fun x =>
      { x with state := .ready, work := none, pass := none, left := 0
               parked := some ⟨w.ref, w.level, m, next, x.left, x.pass⟩ }
  | _, _ => j

/-! ## Joining a list (R51, R100) -/

/-- The test of a queued read segment's target platter (R100): a segment on its primary side with a reachable mirror
goes to the mirror, any other is DONE UNAVAILABLE, and a pending preemption that names it ends with it (log entry 14). -/
def testReach (r : SegRef) (j : Jukebox) : Jukebox :=
  match j.segment r with
  | none => j
  | some (q, g) =>
    if q.kind = .read && !j.inventoryRuns && !j.reachable (platterOf (g.target q.kind)) then
      if g.readSide = .primary && g.mirror.any fun m => j.reachable (platterOf m) then
        j.onSegment r fun g => { g with readSide := .mirror }
      else withdrawNaming r (finishSegment r .unavailable j)
    else j

/-- A request segment that has joined its list is tested, when it is a read, and pushed (R51, R100). -/
def joinList (e : Env) (r : SegRef) (j : Jukebox) : Jukebox := push e (.request r) (testReach r j)

/-- The test of one QUEUED read segment at a platter's loss or at the end of inventory; one that goes to its mirror is
pushed at that event (R100). -/
def retest (e : Env) (j : Jukebox) (r : SegRef) : Jukebox :=
  match j.itemOf (.request r), j.segment r with
  | some it, some (q, _) =>
    if q.kind = .read && !j.inventoryRuns && !j.reachable (platterOf it.target) then joinList e r j else j
  | _, _ => j

/-- The test of every QUEUED read segment (R100): in acceptance order, segment 0 first, each pushed before the next is
tested; the order is the model's choice (log entry 12). -/
def retestAll (e : Env) (j : Jukebox) : Jukebox := (j.table.flatMap Request.refs).foldl (retest e) j

end Sys2Proof.Machine
end

