-- ==== Sys2Proof/Machine/Volume.lean ====
section
/-! DEFINITION. The volume map: resolution of map units, mirror pairs and the trial of a map change (R1, R2, R9 to R20). -/

namespace Sys2Proof.Machine

/-- The place of a type in the order of restrictiveness, the most restrictive first (R13). -/
def HType.restrictiveness : HType → Nat
  | .void => 0
  | .sealed => 1
  | .direct => 2
  | .retain => 3
  | .gather => 4

/-- The valid variable ranges covering a surface, in the order of their numbers (R10). -/
def VolumeMap.covering (m : VolumeMap) (surface : Nat) : List VarRange :=
  m.vars.toList.filter fun r => r.valid && r.first ≤ surface && surface ≤ r.last

/-- The lowest-numbered range of the most restrictive type (R13, R14). -/
def winner : List VarRange → Option VarRange := leastBy fun r => r.htype.restrictiveness

/-- The fixed range covering block `block` of surface 0 or 1 (R9). -/
def VolumeMap.fixedRange (m : VolumeMap) (surface block : Nat) : FixedRange :=
  m.fixed.toList.getD (16 * surface + block / Config.pieceBlocks) ⟨.void, .primary, .primary⟩

/-- The type and routes of a unit before R12's and R13's last conditions: the four cases of R13. -/
def VolumeMap.source (m : VolumeMap) (surface block : Nat) : HType × Side × WriteRoute :=
  if !m.control.mapEnable then (m.control.defaultType, .primary, .primary)
  else if surface < 2 && m.control.fixedEnable then
    let r := m.fixedRange surface block
    (r.htype, r.readRoute, r.writeRoute)
  else match winner (m.covering surface) with
    | some r => (r.htype, r.readRoute, r.writeRoute)
    | none => (m.control.defaultType, .primary, .primary)

/-- The mirror surface of the valid pair whose primary a surface is (R14). -/
def VolumeMap.mirrorOf (m : VolumeMap) (surface : Nat) : Option Nat :=
  (m.pairs.toList.find? fun p => p.valid && p.primary = surface).map fun p => p.mirror

/-- The resolution of the map unit holding block `block` of `surface` (R12 to R14). -/
def VolumeMap.resolve (m : VolumeMap) (surface block : Nat) : Resolution :=
  let src := m.source surface block
  let mirror := m.mirrorOf surface
  let routed := m.control.routing && mirror.isSome
  { htype := if surface < 2 && src.1 = .gather then .sealed else src.1
    readRoute := if routed then src.2.1 else .primary
    writeRoute := if routed then src.2.2 else .primary
    mirror := mirror }

/-- The 222 map units, each as its surface and its first block (R2). -/
def mapUnits : List (Nat × Nat) :=
  ((List.range 2).flatMap fun s => (List.range 16).map fun k => (s, k * Config.pieceBlocks)) ++
    (List.range 190).map fun s => (s + 2, 0)

/-- A surface is busy for the map (R17; log entry 28 on a staged write's DIRECT segments). -/
def Jukebox.busyForMap (j : Jukebox) (surface : Nat) : Bool :=
  2 ≤ surface && ((j.lines.any fun l => l.surface = surface) ||
    j.stagingQueue.any fun q => q.segments.any fun g => g.surface = surface)

/-- A surface is the mirror surface of a valid pair. -/
def VolumeMap.isMirror (m : VolumeMap) (surface : Nat) : Bool :=
  m.pairs.toList.any fun p => p.valid && p.mirror = surface

/-- The trial of a map change (R17, R18): the reason it is refused with, if any. -/
def trial (m m' : VolumeMap) (j : Jukebox) : Option Reason :=
  let changed := mapUnits.filter fun u => (m.resolve u.1 u.2).htype != (m'.resolve u.1 u.2).htype
  if changed.any fun u => j.busyForMap u.1 then some .busySurface
  else if changed.any fun u => (m.resolve u.1 u.2).htype = .sealed && m.isMirror u.1 then some .paired
  else none

/-- The retain lines left after a map change: those of units that left RETAIN are discarded (R20). -/
def retainAfterMap (m m' : VolumeMap) (cache : List RetainLine) : List RetainLine :=
  cache.filter fun l =>
    let b := l.index * Config.lineBlocks
    !((m.resolve l.surface b).htype = .retain && (m'.resolve l.surface b).htype != .retain)

/-- A surface's effective type is SEALED in all its map units (R15 check 3). -/
def VolumeMap.sealedThroughout (m : VolumeMap) (surface : Nat) : Bool :=
  mapUnits.all fun u => u.1 != surface || (m.resolve u.1 u.2).htype = .sealed

/-- The first boundary between map units above block `block` of `surface` (R28). -/
def unitEnd (surface block : Nat) : Nat :=
  if surface < 2 then (block / Config.pieceBlocks + 1) * Config.pieceBlocks else Config.surfaceBlocks

/-- The extents of the segments of archive blocks [`start`, `start + length`): surface, first block, count (R28). -/
def divide (start length : Nat) : List (Nat × Nat × Nat) :=
  let s := start / Config.surfaceBlocks
  let b := start % Config.surfaceBlocks
  let room := unitEnd s b - b
  if length ≤ room then [(s, b, length)]
  else
    let next := start + room
    [(s, b, room), (next / Config.surfaceBlocks, next % Config.surfaceBlocks, length - room)]

end Sys2Proof.Machine
end

