-- ==== Sys2Proof/Machine/Filing.lean ====
section
/-! DEFINITION. The filing engine: due lines, flush segments, the staging reservation queue, sealing, quarantine and
battery-low mode (R105 to R127). -/

namespace Sys2Proof.Machine

/-! ## Due lines and flush segments (R115, R116) -/

/-- A line becomes due; one that is already due keeps its due moment (R115). -/
def GatherLine.makeDue (now : Nat) (l : GatherLine) : GatherLine :=
  if l.due.isSome then l else { l with due := some now }

/-- Make due every FILLING line a test picks (R115). -/
def markDue (e : Env) (pick : GatherLine → Bool) (j : Jukebox) : Jukebox :=
  { j with lines := j.lines.map fun l => if l.state = .filling && pick l then l.makeDue e.now else l }

/-- The flush segment the filing engine makes for a surface, when R116's conditions all hold. -/
def Jukebox.newFlush (e : Env) (j : Jukebox) (surface : Nat) : Option Flush :=
  match (j.linesOf surface).head? with
  | some l =>
    match l.due with
    | some t =>
      if (j.surface surface).condition = .known && (j.surface surface).quarantine.isNone && l.state = .filling &&
          (j.flush surface).isNone then
        let r := e.map.resolve surface 0
        some { surface := surface, line := l.index, writeRoute := r.writeRoute, mirror := r.mirror, due := t,
               state := .queued, range := none, primaryDone := false }
      else none
    | none => none
  | none => none

/-- The filing engine tests a surface for a flush segment, and pushes the one it makes (R116). -/
def testFlush (e : Env) (surface : Nat) (j : Jukebox) : Jukebox :=
  match j.newFlush e surface with
  | some f => push e (.flush surface f.line) { j with flushes := insertFlush f j.flushes }
  | none => j

/-- The filing engine tests every surface with a line in use, in ascending order (R126, R186, log entry 13). -/
def testAllFlushes (e : Env) (j : Jukebox) : Jukebox :=
  (j.lines.map fun l => l.surface).foldl (fun j s => testFlush e s j) j

/-! ## The head of the staging reservation queue (R110 to R113) -/

/-- The GATHER segments of a request. -/
def Request.gatherSegments (q : Request) : List Segment := q.segments.filter fun g => g.htype = .gather

/-- The line indices a segment touches (R112). -/
def Segment.indices (g : Segment) : List Nat :=
  (List.range ((g.end - 1) / Config.lineBlocks + 1 - g.first / Config.lineBlocks)).map
    fun k => g.first / Config.lineBlocks + k

/-- Checks 1 to 5 of R111 that refuse. -/
def Jukebox.headRefusal (j : Jukebox) (q : Request) : Option Status :=
  let gs := q.gatherSegments
  if gs.any fun g => (j.surface g.surface).condition = .unknown then some .protect
  else if gs.any fun g => g.first < (j.surface g.surface).sealMark then some .protect
  else if gs.any fun g => (j.surface g.surface).appendPoint < g.first then some .gap
  else if gs.any fun g => (j.surface g.surface).quarantine.isSome then some .quarantined
  else if !j.inventoryRuns && gs.any fun g => !j.reachable (platterOf g.surface) then some .unavailable
  else none

/-- The new lines a request needs (R112). -/
def Jukebox.linesNeeded (j : Jukebox) (q : Request) : Nat :=
  (q.gatherSegments.map fun g => (g.indices.filter fun n => (j.line g.surface n).isNone).length).sum

/-- Checks 5 to 7 of R111 that make the head wait (R191 on inventory, log entry 21). -/
def Jukebox.headWaits (j : Jukebox) (q : Request) : Bool :=
  j.inventoryRuns ||
  (q.gatherSegments.any fun g => g.indices.any fun n =>
    (j.line g.surface n).any fun l => l.state = .flushing || l.state = .verifying) ||
  j.freeLines < j.linesNeeded q

/-- The data the initiator holds for block `b` of a segment (R36). -/
def Request.dataAt (q : Request) (g : Segment) (b : Nat) : Block :=
  blockAt q.data (g.surface * Config.surfaceBlocks + b - q.start)

/-- The line of index `n` with a segment's blocks staged in it (R113 steps 1 to 3). -/
def stagedLine (e : Env) (q : Request) (g : Segment) (n : Nat) (old : Option GatherLine) : GatherLine :=
  let lo := max g.first (n * Config.lineBlocks)
  let hi := min g.end (n * Config.lineBlocks + Config.lineBlocks)
  match old with
  | none =>
    { surface := g.surface, index := n, lo := lo, hi := hi
      data := (List.range (hi - lo)).map fun k => q.dataAt g (lo + k)
      state := .filling, due := none, firstStaged := e.now
      ageExpiry := e.now + e.settings.lineAge * 1000, attempts := 0 }
  | some l =>
    let lo' := min l.lo lo
    let hi' := max l.hi hi
    { l with
      lo := lo', hi := hi'
      data := (List.range (hi' - lo')).map fun k =>
        let b := lo' + k
        if lo ≤ b && b < hi then q.dataAt g b else blockAt l.data (b - l.lo) }

/-- Stage a segment's blocks in the line of index `n` (R113). -/
def stageIn (e : Env) (q : Request) (g : Segment) (j : Jukebox) (n : Nat) : Jukebox :=
  match j.line g.surface n with
  | some l => j.onLine g.surface n fun _ => stagedLine e q g n (some l)
  | none => { j with lines := insertLine (stagedLine e q g n none) j.lines }

/-- Reserve for one GATHER segment: its lines, its data, its append point and its due lines (R113, R126). -/
def stageSegment (e : Env) (q : Request) (j : Jukebox) (g : Segment) : Jukebox :=
  let j := j.send (.fetch q.initiator q.tag (q.address g g.first) g.count)
  let j := g.indices.foldl (stageIn e q g) j
  let j := j.onSurface g.surface fun r => { r with appendPoint := max r.appendPoint g.end }
  markDue e (fun l => l.surface = g.surface &&
    (l.index * Config.lineBlocks + Config.lineBlocks ≤ (j.surface g.surface).appendPoint ||
      (e.batteryLow && g.indices.contains l.index))) j

/-- The request after its reservation: ACTIVE, its GATHER segments DONE GOOD but in battery-low mode (R113, R126). -/
def Request.reserved (low : Bool) (q : Request) : Request :=
  { q with
    state := .active
    stagingExpiry := none
    segments := q.segments.map fun g => if g.htype = .gather && !low then g.finished .good else g : Request }.rolled

/-- Reservation for the head of the queue (R113).  Of two GATHER segments, segment 0 has its data fetched and staged first: the
model's choice, R113 and R36 giving no order of the two fetches on the front bus (log entry 12).  The flush segments of its due
lines (R116) are made and pushed here, before the next head is examined: the model's choice (log entry 12). -/
def reserve (e : Env) (q : Request) (j : Jukebox) : Jukebox :=
  let gs := q.gatherSegments
  let j := gs.foldl (stageSegment e q) j
  let j := j.onRequest q.initiator q.tag (Request.reserved e.batteryLow)
  let j := (q.refs.zip q.segments).foldl (fun j x => if x.2.htype = .gather then j else joinList e x.1 j) j
  gs.foldl (fun j g => testFlush e g.surface j) j

/-- Examinations of the head, at most `n`: each refused or reserved head is followed by the next (R110). -/
def examineN (e : Env) : Nat → Jukebox → Jukebox
  | 0, j => j
  | n + 1, j =>
    match j.stagingQueue with
    | [] => j
    | q :: _ =>
      match j.headRefusal q with
      | some st => examineN e n (j.onRequest q.initiator q.tag fun q => q.endedWith st)
      | none => if j.headWaits q then j else examineN e n (reserve e q j)

/-- The filing engine examines the head of the staging reservation queue (R110). -/
def examineHead (e : Env) (j : Jukebox) : Jukebox := examineN e j.table.length j

/-! ## Battery-low filing (R126, R127) -/

/-- A segment reserved in battery-low mode and awaiting sealing. -/
def Request.awaits (q : Request) (g : Segment) : Bool :=
  q.kind = .write && q.state = .active && g.htype = .gather && g.state = .queued

/-- Make DONE the awaiting segments a test picks, and roll their requests up (R126, R127). -/
def endAwaiting (st : Status) (pick : Segment → Bool) (j : Jukebox) : Jukebox :=
  { j with
    table := j.table.map fun q =>
      { q with segments := q.segments.map fun g => if q.awaits g && pick g then g.finished st else g : Request }.rolled }

/-! ## The ends of a flush (R119 to R121) -/

/-- The last required verify of the flush of a surface has passed: its blocks are sealed and its line is FREE (R119). -/
def sealBlocks (f : Flush) (j : Jukebox) : Jukebox :=
  let mark := (j.flushRange f).2
  let j := j.onSurface f.surface fun r => { r with sealMark := mark }
  let j := (j.freeLine f.surface f.line).dropFlush f.surface
  endAwaiting .good (fun g => g.surface = f.surface && g.end ≤ mark) j

/-- The third failed verify of a flush: its line is PINNED and its surface quarantined (R120). -/
def pinLine (f : Flush) (side : Side) (j : Jukebox) : Jukebox :=
  let j := j.onLine f.surface f.line fun l => { l with state := .pinned, attempts := 3 }
  let j := j.onSurface f.surface fun r => { r with quarantine := some ⟨f.line, side, 3⟩ }
  let j := j.dropFlush f.surface
  endAwaiting .quarantined (fun g => g.surface = f.surface && (j.surface f.surface).sealMark < g.end) j

/-- The filing engine takes back the line of a flush that a drive fault or a missing platter ended (R121, R160).
Its new flush segment is made and pushed before the head of the queue is examined: the model's choice (log entry 12). -/
def takeBack (e : Env) (surface line : Nat) (j : Jukebox) : Jukebox :=
  let j := (j.onLine surface line fun l => { l with state := .filling }).dropFlush surface
  examineHead e (testFlush e surface j)

/-! ## Commands of filing (R115, R123, R124) -/

/-- FLUSH ALL (R115). -/
def flushAllLines (e : Env) (j : Jukebox) : Jukebox := testAllFlushes e (markDue e (fun _ => true) j)

/-- RELEASE QUARANTINE RETRY (R123). -/
def retryQuarantine (e : Env) (surface : Nat) (q : Quarantine) (j : Jukebox) : Jukebox :=
  let j := j.onLine surface q.line fun l => { l with state := .filling, due := some e.now, attempts := 0 }
  let j := j.onSurface surface fun r => { r with quarantine := none }
  examineHead e (testFlush e surface j)

/-- RELEASE QUARANTINE DISCARD (R124). -/
def discardQuarantine (e : Env) (surface : Nat) (j : Jukebox) : Jukebox :=
  let j := { j with lines := j.lines.filter fun l => l.surface != surface }
  let j := j.onSurface surface fun r => { r with appendPoint := r.sealMark, quarantine := none }
  examineHead e j

/-- A line reaches its age limit (R115). -/
def ageLimit (e : Env) (surface index : Nat) (j : Jukebox) : Jukebox :=
  testFlush e surface (markDue e (fun l => l.surface = surface && l.index = index) j)

/-- The part enters battery-low mode (R126); `e` has the mode on. -/
def enterLow (e : Env) (j : Jukebox) : Jukebox := testAllFlushes e (markDue e (fun _ => true) j)

/-- The part leaves battery-low mode (R127). -/
def leaveLow (j : Jukebox) : Jukebox := endAwaiting .good (fun _ => true) j

end Sys2Proof.Machine
end

