-- ==== Sys2Proof/Machine/Inventory.lean ====
section
/-! DEFINITION. Inventory and picker faults (R82, R156, R158, R189 to R191). -/

namespace Sys2Proof.Machine

/-- The running order becomes HALTED at its step (R82, R86). -/
def haltOrder (j : Jukebox) : Jukebox :=
  { j with orders := j.orders.map fun (o : Order) => if o.state = .running then { o with state := .halted } else o }

/-- The picker enters FAULT: the running order is HALTED at its step, and a fault during a move leaves no position
(R82, R158). -/
def pickerFault (r : PickerReason) (moving : Bool) (j : Jukebox) : Jukebox :=
  (haltOrder j).onPicker fun p =>
    { p with
      state := .fault, reason := some r, stepLimit := none, recovering := false
      position := if moving then none else p.position }

/-- Inventory goes on with a task, with a fresh step limit (R82, R189). -/
def setTask (e : Env) (t : InvTask) (j : Jukebox) : Jukebox :=
  freshLimit e (j.onPicker fun p => { p with inventory := some t })

/-- Inventory takes the first drive from number `k` on that holds a platter it has to carry home, or else the slots
(R189, R190).  A platter inventory itself left in a drive (ORPHAN) is passed over. -/
def nextDrive (e : Env) (k : Nat) (j : Jukebox) : Jukebox :=
  match allDrives.find? fun d => k ≤ d.val && (j.drive d).platter.isSome && (j.drive d).reason != some .orphan with
  | some d => setTask e (.driveCheck d) j
  | none => setTask e (.slot 0) j

/-- Inventory begins with the picker's own grip (R189). -/
def beginInventory (e : Env) (j : Jukebox) : Jukebox :=
  match j.picker.gripped with
  | some p => setTask e (.gripCheck p) j
  | none => nextDrive e 0 j

/-- The platter of drive `d` is held there (R75, R155, R189). -/
def holdIn (d : Fin 4) (p : Nat) (j : Jukebox) : Jukebox :=
  j.onPlatter p fun x => { x with present := true, location := some (.drive d), held := true }

/-- Drive `d` enters FAULT with reason ORPHAN, its platter held (R75, R189).  A drive already in FAULT takes the reason too:
R75 lets a first reason stand against further reports, and this is none.  An eject attempt that still runs there is given up,
which is the model's choice (log entry 25). -/
def orphan (d : Fin 4) (p : Nat) (j : Jukebox) : Jukebox :=
  holdIn d p (j.onDrive d fun x =>
    { x with state := .fault, platter := some p, mounted := none, dwell := none, limit := none, ejecting := false,
             clearing := false, reason := some .orphan })

/-- Inventory grips the platter of drive `d` when the picker stands there and the platter is at the mouth (R78, R189). -/
def checkCollect (e : Env) (j : Jukebox) : Jukebox :=
  match j.picker.inventory with
  | some (.driveUnload d) =>
    if j.picker.state = .inventory && j.picker.standsAt d then
      if (j.drive d).ejected then setTask e (.driveGrip d) j
      else j.onPicker fun p => { p with stepLimit := none }
    else j
  | _ => j

/-- Inventory leaves drive `d` with the platter it could not collect, which is held there, and goes on to the next (R189). -/
def passOver (e : Env) (d : Fin 4) (j : Jukebox) : Jukebox :=
  nextDrive e (d.val + 1) (match (j.drive d).platter with
    | some p => holdIn d p j
    | none => j)

/-- Inventory's unload of drive `d` after its platter's home slot was found empty; a drive in FAULT makes or has made its
eject attempt in place of it, and one whose eject was not taken is passed over (R189). -/
def inventoryUnload (e : Env) (d : Fin 4) (j : Jukebox) : Jukebox :=
  let x := j.drive d
  if x.state = .fault && !x.ejected && !x.ejecting then passOver e d j
  else checkCollect e (beginUnload e d (setTask e (.driveUnload d) j))

/-- Inventory goes on with the next drive when it was waiting for drive `d` (R189). -/
def passDrive (e : Env) (d : Fin 4) (j : Jukebox) : Jukebox :=
  if j.picker.inventory = some (.driveUnload d) then passOver e d j else j

/-- Inventory has still to collect the platter of drive `d` (R189). -/
def InvTask.willCollect (d : Fin 4) : InvTask → Bool
  | .start => true
  | .gripCheck _ => true
  | .gripRelease _ => true
  | .gripInsert _ _ => true
  | .gripStuck _ => true
  | .driveCheck k => k.val ≤ d.val
  | .driveUnload k => k.val ≤ d.val
  | .driveGrip k => k.val ≤ d.val
  | .driveCarry k _ => k.val < d.val
  | .slot _ => false

/-- What a check of slot `n` records (R190). -/
def recordSlot (n : Nat) (found : Option Found) (j : Jukebox) : Jukebox :=
  match found with
  | none => j
  | some f =>
    if f.label = n then
      match (j.platter n).location with
      | some (.drive _) => j
      | _ => j.onPlatter n fun x => { x with present := true, location := some .slot, orientation := f.up }
    else j.onPlatter f.label fun x => { x with misfile := some n }

/-- Inventory ends: the picker is PARKED at slot 95, queued read segments are tested, the arbiter sweeps and the head of
the staging reservation queue is examined (R191).  An order that already waits is started (R77) before the test and the sweep:
the model's choice (log entry 12). -/
def endInventory (e : Env) (j : Jukebox) : Jukebox :=
  let j := j.onPicker fun p => { p with inventory := none, state := .parked, stepLimit := none }
  examineHead e (sweep e (retestAll e (startNext e j)))

/-- The lowest-numbered drive that reported no platter (R189), also one taken OFFLINE since, which the insertion then makes FAULT:
the model's choice (log entry 25). -/
def Jukebox.bareDrive (j : Jukebox) : Option (Fin 4) := allDrives.find? fun d => (j.drive d).platter.isNone

/-- A check of home slot `p` for a platter the picker or a drive holds has ended; a finding that it is occupied is kept
(R159, R189). -/
def homeChecked (p : Nat) (found : Option Found) (j : Jukebox) : Jukebox :=
  j.onPicker fun k =>
    { k with
      position := some (.slot p), midway := false
      slotTaken := if found.isSome then p :: k.slotTaken else k.slotTaken }

/-- The end of an inventory check (R189, R190). -/
def slotCheck (e : Env) (found : Option Found) (j : Jukebox) : Jukebox :=
  let at' (n : Nat) (j : Jukebox) : Jukebox := j.onPicker fun p => { p with position := some (.slot n), midway := false }
  if j.picker.state = .inventory then
    match j.picker.inventory with
    | some (.gripCheck p) =>
      let j := homeChecked p found j
      if found.isNone then setTask e (.gripRelease p) j
      else match j.bareDrive with
        | some d => setTask e (.gripInsert p d) j
        | none => pickerFault .grip false (j.onPicker fun x => { x with inventory := some (.gripStuck p) })
    | some (.driveCheck d) =>
      match (j.drive d).platter with
      | some p =>
        let j := homeChecked p found j
        if found.isSome then nextDrive e (d.val + 1) (orphan d p j) else inventoryUnload e d j
      | none => nextDrive e (d.val + 1) j
    | some (.slot n) =>
      let j := recordSlot n found (at' n j)
      if n + 1 < Config.platterCount then setTask e (.slot (n + 1)) j else endInventory e j
    | _ => j
  else j

end Sys2Proof.Machine
end

