-- ==== Sys2Proof/Machine/Retrieval.lean ====
section
/-! DEFINITION. The source of each read block, RAM segments and the retain cache (R30, R90 to R98, R101 to R103). -/

namespace Sys2Proof.Machine

/-! ## RAM segments (R30, R94) -/

/-- A read segment whose blocks are all in buffer memory (R30). -/
def Jukebox.inRam (j : Jukebox) (g : Segment) : Bool :=
  match g.htype with
  | .retain => g.indices.all fun n => (retainFind j.retain g.surface n).isSome
  | .gather => (j.surface g.surface).sealMark ≤ g.first && g.end ≤ (j.surface g.surface).appendPoint
  | _ => false

/-- The blocks of a segment. -/
def Segment.blocks (g : Segment) : List Nat := (List.range g.count).map fun k => g.first + k

/-- Serve a RAM segment at its acceptance: its blocks, its tallies and the recency of its retain lines (R94, R102). -/
def serveRam (r : SegRef) (j : Jukebox) : Jukebox :=
  match j.segment r with
  | none => j
  | some (_, g) =>
    let gather := g.htype = .gather
    let kept := g.blocks.map fun b =>
      if gather then j.stagedBlock g.surface b else cachedBlock j.retain g.surface b
    let j := if gather then j
      else { j with retain := g.indices.foldl (fun c n => retainTouch c g.surface n) j.retain }
    let j := j.onSegment r fun g =>
      { g with kept := kept, served := g.count, staged := if gather then g.count else 0 }
    finishSegment r .good j

/-! ## The blocks of a burst (R90 to R93, R96, R101) -/

/-- Why a burst stops serving: a BLANK block, an unreadable block, or an unreadable block with a mirror to fall back
to (R93, R101). -/
inductive Stop
  | blank
  | media
  | fallback (block : Nat)
  deriving DecidableEq, Repr

/-- What a burst has done so far. -/
structure Burst where
  cache : List RetainLine
  kept : List Block
  served : Nat
  billable : Nat
  staged : Nat
  stop : Option Stop
  fill : Option Fill
  installs : List RetainLine
  deriving DecidableEq, Repr

/-- The drive's report of block `b`; a block without a report counts as never written (log entry 10). -/
def reportOf (media : List (Nat × MediaRead)) (b : Nat) : MediaRead :=
  match media.find? fun m => m.1 = b with
  | some m => m.2
  | none => .blank

/-- The padding blocks [`lo`, `hi`) of a retain line as the drive reads them, or none when one is BLANK or unreadable
(R96). -/
def padding (media : List (Nat × MediaRead)) (lo hi : Nat) : Option (List Block) :=
  (List.range (hi - lo)).mapM fun k =>
    match reportOf media (lo + k) with
    | .data x => some x
    | _ => none

/-- Go on reading the retain line of block `b` from the platter, block `b` being `x` (R96). -/
def growFill (media : List (Nat × MediaRead)) (g : Segment) (b : Nat) (x : Block) (a : Burst) : Burst :=
  let n := b / Config.lineBlocks
  let lineLo := n * Config.lineBlocks
  let lineHi := lineLo + Config.lineBlocks
  let begun : Option Fill :=
    if b = max lineLo g.first then
      match padding media lineLo b with
      | some pre => some ⟨n, pre ++ [x], true⟩
      | none => some ⟨n, [], false⟩
    else match a.fill with
      | some f => if f.index = n then some { f with data := f.data ++ [x] } else none
      | none => none
  match begun with
  | none => { a with fill := none }
  | some f =>
    if b + 1 = min lineHi g.end then
      match padding media (b + 1) lineHi with
      | some post =>
        if f.whole then { a with fill := none, installs := a.installs ++ [⟨g.surface, n, f.data ++ post⟩] }
        else { a with fill := none }
      | none => { a with fill := none }
    else { a with fill := some f }

/-- A platter block of a burst (R90, R93, R101, R102). -/
def platterBlock (media : List (Nat × MediaRead)) (g : Segment) (billable fills : Bool) (b : Nat) (a : Burst) : Burst :=
  match reportOf media b with
  | .data x =>
    let a := { a with kept := a.kept ++ [x], served := a.served + 1
                      billable := if billable then a.billable + 1 else a.billable }
    if fills then growFill media g b x a else a
  | .blank => { a with stop := some .blank, fill := none }
  | .unreadable =>
    { a with
      stop := some (if g.readSide = .primary && g.mirror.isSome then .fallback b else .media), fill := none }

/-- One block of a burst of a read segment: `x` is its source and its number; its tallies follow the table of R90 (R102).  A
cached line becomes the most recently used; one evicted or discarded since the burst began is not found, and the block is read
from the platter (R97, log entry 11). -/
def serveBlock (feeClass : Nat) (g : Segment) (media : List (Nat × MediaRead)) (a : Burst) (x : Source × Nat) : Burst :=
  if a.stop.isSome then a
  else
    let fromPlatter : Burst :=
      platterBlock media g (1 ≤ feeClass && (g.htype = .sealed || g.htype = .gather)) (g.htype = .retain) x.2 a
    match x.1 with
    | .platter => fromPlatter
    | .staged c => { a with kept := a.kept ++ [c], served := a.served + 1, staged := a.staged + 1 }
    | .cached c =>
      if (retainFind a.cache g.surface (x.2 / Config.lineBlocks)).isSome then
        { a with kept := a.kept ++ [c], served := a.served + 1
                 cache := retainTouch a.cache g.surface (x.2 / Config.lineBlocks), fill := none }
      else fromPlatter
    | .nothing => { a with stop := some .blank, fill := none }

/-- The blocks that a write pass in hand or parked has written: `size` blocks from `first` on, less those left (R98). -/
def writtenRange (g : Segment) (left : Nat) : Nat × Nat := (g.first, g.end - left)

/-- The request write segments a drive holds or has parked, in a primary pass, with the blocks left of it (R98). -/
def Jukebox.primaryWrites (j : Jukebox) (d : Fin 4) : List (Segment × Nat) :=
  let x := j.drive d
  let held : List (Segment × Nat) := match x.work, x.pass with
    | some w, some p =>
      if p.side = .primary then
        match w.dropped, w.ref with
        | some g, _ => [(g, x.left)]
        | none, .request r => (j.segment r).toList.map fun qg => (qg.2, x.left)
        | none, .flush _ _ => []
      else []
    | _, _ => []
  let parked : List (Segment × Nat) := match x.parked with
    | some c =>
      match c.ref, c.pass with
      | .request r, some p =>
        if p.side = .primary then (j.segment r).toList.map fun qg => (qg.2, c.remaining) else []
      | _, _ => []
    | none => []
  held ++ parked

/-- R98 forbids a line: a write segment has written a block of it that has not passed its verify.  Of a primary pass that a
failed verify has begun again, only the blocks written since count here: the model's choice (log entry 23). -/
def Jukebox.unverified (j : Jukebox) (l : RetainLine) : Bool :=
  allDrives.any fun d => (j.primaryWrites d).any fun x =>
    let w := writtenRange x.1 x.2
    x.1.surface = l.surface && w.1 < w.2 && w.1 / Config.lineBlocks ≤ l.index &&
      l.index ≤ (w.2 - 1) / Config.lineBlocks

/-- Install the lines a burst has read whole, in the order of their blocks and after every touch of the burst, as far as R96
lets (R20, R97, R98; log entry 12 on that order). -/
def installAll (e : Env) (j : Jukebox) (lines : List RetainLine) (cache : List RetainLine) : List RetainLine :=
  lines.foldl
    (fun c l =>
      if (e.map.resolve l.surface (l.index * Config.lineBlocks)).htype = .retain && !j.unverified l then retainInstall c l
      else c)
    cache

/-- The burst of a read segment: the blocks it serves from the segment's next block on, whose sources are `reached`. -/
def readBurst (cache : List RetainLine) (feeClass : Nat) (g : Segment) (fill : Option Fill)
    (media : List (Nat × MediaRead)) (reached : List Source) : Burst :=
  (reached.zipIdx g.next).foldl (serveBlock feeClass g media)
    { cache := cache, kept := [], served := 0, billable := 0, staged := 0, stop := none, fill := fill, installs := [] }

/-- Discard the cached lines holding blocks that a write segment has written in its current primary pass and not
verified (R98, R152). -/
def discardWritten (g : Segment) (left : Nat) (j : Jukebox) : Jukebox :=
  { j with retain := retainDiscard j.retain g.surface (writtenRange g left).1 (writtenRange g left).2 }

/-- Discard the cached lines holding any block of a write segment (R98, R152). -/
def discardSegment (g : Segment) (j : Jukebox) : Jukebox :=
  { j with retain := retainDiscard j.retain g.surface g.first g.end }

end Sys2Proof.Machine
end

