-- ==== Sys2Proof/Machine/Faults.lean ====
section
/-! DEFINITION. Drive faults, eject attempts and held platters (R75, R121, R151 to R157, R161 to R163). -/

namespace Sys2Proof.Machine

/-- Discard the cached lines of a DIRECT or RETAIN write's primary pass that a drive fault interrupts (R152): those of the blocks
written since the pass began, or, after a failed verify, began again; the latter is the model's choice (log entry 23). -/
def discardPass (g : Segment) (p : Option Pass) (left : Nat) (j : Jukebox) : Jukebox :=
  if p.any fun x => x.side = .primary then discardWritten g left j else j

/-- Discard the cached lines of a RETAIN write's primary pass that a deadline or a front bus reset stops at a burst end
or a verify end (R98). -/
def discardStopped (g : Segment) (p : Option Pass) (left : Nat) (j : Jukebox) : Jukebox :=
  if g.htype = .retain then discardPass g p left j else j

/-- The segment as it goes back to QUEUED: a write carries its progress, and its next pass begins at its first block
(R152, log entry 24).  R29 gives its failed-verify count and sides done for when no drive holds it; while a drive holds it or
has it parked they stay as its last return left them, which is the model's choice (log entry 24). -/
def Segment.requeued (p : Option Pass) (g : Segment) : Segment :=
  match p with
  | some x =>
    { g with state := .queued, failedVerify := x.failed, primaryDone := x.side = .mirror, current := g.count }
  | none => { g with state := .queued }

/-- A faulted drive hands back a request segment (R151 to R153, log entry 22 on a request past its deadline). -/
def handBackRequest (e : Env) (r : SegRef) (p : Option Pass) (left : Nat) (j : Jukebox) : Jukebox :=
  match j.segment r with
  | none => j
  | some (q, g) =>
    let j := discardPass g p left j
    if q.state = .completing then stopSegment r j
    else if g.attempts < 2 then
      joinList e r (j.onSegment r fun g => { g.requeued p with attempts := g.attempts + 1 })
    else
      finishSegment r .mediaError (if q.kind = .write then discardSegment g j else j)

/-- A faulted drive hands back the segment it held or had parked (R151, R153). -/
def handBack (e : Env) (w : WorkRef) (dropped : Option Segment) (p : Option Pass) (left : Nat) (j : Jukebox) : Jukebox :=
  match w, dropped with
  | .request _, some g => discardPass g p left j
  | .request r, none => handBackRequest e r p left j
  | .flush s n, _ => takeBack e s n j

/-- The drive record at the entry to FAULT (R75). -/
def Drive.faulted (r : DriveReason) (x : Drive) : Drive :=
  { x with
    state := .fault, mounted := none, dwell := none, work := none, pass := none, left := 0, preempt := none,
    parked := none, limit := none, reason := some r, clearing := false, ejecting := false }

/-- The order naming a faulted drive (R154).  Where the current order ends, the next QUEUED order starts before the sweep for
its incoming platter, bound no more: the model's choice (log entry 12). -/
def faultOrder (e : Env) (d : Fin 4) (r : DriveReason) (j : Jukebox) : Jukebox :=
  match j.orderOf d with
  | none => j
  | some o =>
    let after (j : Jukebox) := sweepIfInSlot e o.incoming j
    if o.state = .queued then after (removeOrder e d j)
    else if o.step = 1 && !(j.drive d).ejected && r = .eject then
      after (removeOrder e d (if j.picker.standsAt d then j else breakMove j))
    else if o.step ≤ 3 then after (becomeReturnHome d j)
    else if o.step = 4 then after (removeOrder e d (breakMove j))
    else
      let j := j.onOrder d fun o =>
        { o with kind := .returnHome, outgoing := if o.kind = .returnHome then o.outgoing else o.incoming,
                 incoming := none, wanted := none, express := false, step := if o.step = 5 then 5 else 3 }
      after (if o.step = 5 || o.state != .running then j else freshLimit e j)

/-- A platter becomes held, and the queued read segments whose target is on it are tested (R100, R156). -/
def hold (e : Env) (d : Fin 4) (p : Nat) (j : Jukebox) : Jukebox := retestAll e (holdIn d p j)

/-- The platter of a faulted drive: held at once for an eject that failed, else one eject attempt begins (R75, R155). -/
def faultPlatter (e : Env) (d : Fin 4) (r : DriveReason) (j : Jukebox) : Jukebox :=
  let x := j.drive d
  match x.platter with
  | none => j
  | some p =>
    if x.ejected then j
    else if r = .eject || r = .orphan then passDrive e d (hold e d p j)
    else j.onDrive d fun x => { x with ejecting := true, limit := some (e.now + Config.driveLimit) }

/-- Drive `d` enters FAULT (R75): its segments are handed back, its pending preemption is withdrawn and considered once
more, then its order and its platter are dealt with (R151), and the sweep for the parked platter, bound no more (R153), comes last: the
model's choice (log entry 12). -/
def driveFault (e : Env) (d : Fin 4) (r : DriveReason) (j : Jukebox) : Jukebox :=
  let x := j.drive d
  let j := j.onDrive d (Drive.faulted r)
  let j := match x.work with
    | some w => handBack e w.ref w.dropped x.pass x.left j
    | none => j
  let j := match x.parked with
    | some c => handBack e c.ref none c.pass c.remaining j
    | none => j
  let j := match x.preempt with
    | some s => considerPreempt e s j
    | none => j
  let j := faultPlatter e d r (faultOrder e d r j)
  match x.parked with
  | some c => sweepIfInSlot e (some (platterOf c.surface)) j
  | none => j

/-- The order of a faulted drive whose eject attempt was not taken ends, when it is still in step 1 (R154). -/
def endStep1 (e : Env) (d : Fin 4) (j : Jukebox) : Jukebox :=
  match j.orderOf d with
  | some o => if o.step = 1 && o.state != .queued then
      removeOrder e d (if j.picker.standsAt d then j else breakMove j) else j
  | none => j

/-- An eject attempt is taken: the platter waits at the mouth for the order in the queue, for inventory, or for a new
RETURN HOME (R155, R157, R189). -/
def ejectTaken (e : Env) (d : Fin 4) (j : Jukebox) : Jukebox :=
  let x := j.drive d
  let j := j.onDrive d fun x => { x with ejecting := false, lastEject := some .taken, ejected := true, limit := none }
  let j := match x.clearing, x.platter with
    | true, some p => j.onPlatter p fun r => { r with held := false }
    | _, _ => j
  let j := if (j.orderOf d).isSome then checkStep1 e j
    else if j.picker.inventory.any (InvTask.willCollect d) then checkCollect e j
    else placeReturnHome e d false j
  if x.clearing then examineHead e j else j

/-- An eject attempt is not taken: the platter is held, and stays held after CLEAR DRIVE (R155, R157).  An order still in step
1 ends, and the next QUEUED order starts, before the platter is held and the QUEUED reads are tested: the model's choice (log
entry 12). -/
def ejectNotTaken (e : Env) (d : Fin 4) (j : Jukebox) : Jukebox :=
  let x := j.drive d
  let j := j.onDrive d fun x => { x with ejecting := false, lastEject := some .notTaken, limit := none, clearing := false }
  let j := if x.clearing then j else
    let j := endStep1 e d j
    match x.platter with
    | some p => hold e d p j
    | none => j
  passDrive e d j

/-- An eject attempt runs in drive `d` (R155). -/
def Jukebox.ejecting (j : Jukebox) (d : Fin 4) : Bool := (j.drive d).state = .fault && (j.drive d).ejecting

/-- CLEAR DRIVE on a drive (R157): the reason it is refused with, or its effect. -/
def clearDrive (e : Env) (d : Fin 4) (j : Jukebox) : Except Reason Jukebox :=
  let x := j.drive d
  if x.state != .fault then .error .state
  else if x.reason = some .orphan then .error .state
  else if x.ejecting || (j.orderOf d).isSome then .error .state
  else match x.platter with
    | none =>
      let j := j.onDrive d fun x => { x with state := .empty, reason := none }
      .ok (examineHead e (driveFree e d false j))
    | some p =>
      if (j.platter p).held then
        .ok (j.onDrive d fun x =>
          { x with ejecting := true, clearing := true, limit := some (e.now + Config.driveLimit) })
      else .error .state

/-- TAKE OFFLINE on a drive (R164). -/
def takeOffline (e : Env) (d : Fin 4) (j : Jukebox) : Except Reason Jukebox :=
  let x := j.drive d
  if x.state = .offline || x.offlineFlag || x.state = .fault then .error .state
  else
    let j := j.onDrive d fun x => { x with offlineFlag := true, dwell := none, preempt := none }
    let j := match x.preempt with
      | some s => considerPreempt e s j
      | none => j
    .ok (if x.work.isNone && x.parked.isNone then leaveService e d j else j)

/-- RETURN DRIVE on a drive (R74). -/
def returnDrive (e : Env) (d : Fin 4) (j : Jukebox) : Except Reason Jukebox :=
  if (j.drive d).state != .offline then .error .state
  else
    let j := j.onDrive d fun x => { x with state := .empty, offlineFlag := false }
    .ok (examineHead e (driveFree e d false j))

end Sys2Proof.Machine
end

