-- ==== Sys2Proof/Machine/Drives.lean ====
section
/-! DEFINITION. Drive events: spin-up, spin-down, burst ends and verify ends (R70 to R74, R93, R96, R98, R101, R118 to
R120, R125). -/

namespace Sys2Proof.Machine

/-! ## Spin-up and spin-down (R70, R73) -/

/-- A drive's spin-up completes (R70). -/
def spinUp (e : Env) (d : Fin 4) (j : Jukebox) : Jukebox :=
  let x := j.drive d
  match x.state, x.platter with
  | .loading, some p =>
    let j := j.onDrive d fun x =>
      { x with state := .ready, mounted := some (surfaceUp p (j.platter p).orientation), lastUse := e.now, limit := none }
    if x.work.isSome then enterTransfer d j else driveFree e d false j
  | _, _ => j

/-- A drive's spin-down completes, and its eject takes place or does not (R73, R78). -/
def spinDown (e : Env) (d : Fin 4) (ejected : Bool) (j : Jukebox) : Jukebox :=
  let x := j.drive d
  if x.state = .unloading && !x.ejected then
    if ejected then checkCollect e (checkStep1 e (j.onDrive d fun x => { x with ejected := true, limit := none }))
    else driveFault e d .eject j
  else j

/-! ## Burst ends (R71) -/

/-- The record of a drive at a burst end: its count falls and its last-use time is set (R71). -/
def Drive.burstDone (now : Nat) (x : Drive) : Drive :=
  { x with left := x.left - min Config.burstBlocks x.left, lastUse := now }

/-- The burst end leaves blocks of the pass: a pending preemption parks the rest, otherwise the next burst begins (R71
cases 4 and 5, log entry 14). -/
def continuePass (e : Env) (d : Fin 4) (j : Jukebox) : Jukebox :=
  match j.preemptor d with
  | some it => dispatch e d it (park d j)
  | none => beginBurst d (j.onDrive d fun x => { x with preempt := none })

/-- The drive lets its segment go and goes on (R57, R61, R63). -/
def endWork (e : Env) (d : Fin 4) (j : Jukebox) : Jukebox := afterSegment e d (release d j)

/-- The burst of a write pass has ended: VERIFY after the last block, with any pending preemption withdrawn and
considered once more (R61, R71 case 3); otherwise the pass goes on. -/
def writeOn (e : Env) (d : Fin 4) (j : Jukebox) : Jukebox :=
  let x := j.drive d
  if x.left = 0 then
    let j := j.onDrive d fun x => { x with state := .verify, preempt := none }
    match x.preempt with
    | some r => considerPreempt e r j
    | none => j
  else continuePass e d j

/-- The segment's current count falls by the length of a burst (R29, R71). -/
def Segment.shrunk (n : Nat) (g : Segment) : Segment := { g with current := g.current - n }

/-- The blocks a burst served join the segment (R71, R102). -/
def Segment.afterBurst (b : Burst) (n : Nat) (g : Segment) : Segment :=
  { g with
    current := g.current - n, kept := g.kept ++ b.kept, served := g.served + b.served
    billable := g.billable + b.billable, staged := g.staged + b.staged }

/-- The segment of a fallback, with the unreadable block next (R101). -/
def Segment.fellBack (block : Nat) (g : Segment) : Segment :=
  { g with readSide := .mirror, current := g.end - block, state := .queued }

/-- The end of a burst of a read segment in the table (R71, R93, R96, R101).  Lines the burst served from become the most
recently used first, then the lines it has read whole are installed, whichever of them held the earlier blocks: the model's
choice (log entry 12). -/
def readBurstEnd (e : Env) (d : Fin 4) (w : Work) (r : SegRef) (q : Request) (g : Segment)
    (media : List (Nat × MediaRead)) (j : Jukebox) : Jukebox :=
  let n := min Config.burstBlocks (j.drive d).left
  let b := readBurst j.retain q.feeClass g w.fill media w.reached
  let j := { j with retain := installAll e j b.installs b.cache }
  let j := j.onDrive d fun x => { x.burstDone e.now with work := some { w with fill := b.fill, reached := [] } }
  let j := j.onSegment r (Segment.afterBurst b n)
  if q.state = .completing then endWork e d (stopSegment r j)
  else
    match b.stop with
    | some .blank => endWork e d (finishSegment r .blank j)
    | some .media => endWork e d (finishSegment r .mediaError j)
    | some (.fallback k) => endWork e d (joinList e r (j.onSegment r (Segment.fellBack k)))
    | none => if (j.drive d).left = 0 then endWork e d (finishSegment r .good j) else continuePass e d j

/-- The end of a burst of a write segment in the table (R71, R98). -/
def writeBurstEnd (e : Env) (d : Fin 4) (r : SegRef) (q : Request) (g : Segment) (j : Jukebox) : Jukebox :=
  let n := min Config.burstBlocks (j.drive d).left
  let j := (j.onDrive d (Drive.burstDone e.now)).onSegment r (Segment.shrunk n)
  if q.state = .completing then
    endWork e d (discardStopped g (j.drive d).pass (j.drive d).left (stopSegment r j))
  else writeOn e d j

/-- The end of a burst of a segment whose request a front bus reset dropped (R42, R71 case 1). -/
def droppedBurstEnd (e : Env) (d : Fin 4) (w : Work) (g : Segment) (media : List (Nat × MediaRead)) (j : Jukebox) :
    Jukebox :=
  let x := j.drive d
  match x.pass with
  | some _ =>
    let j := j.onDrive d (Drive.burstDone e.now)
    endWork e d (discardStopped g x.pass (j.drive d).left j)
  | none =>
    let b := readBurst j.retain 0 g w.fill media w.reached
    endWork e d ({ j with retain := installAll e j b.installs b.cache }.onDrive d (Drive.burstDone e.now))

/-- The end of a burst of a flush (R71, R118). -/
def flushBurstEnd (e : Env) (d : Fin 4) (surface line : Nat) (j : Jukebox) : Jukebox :=
  let j := j.onDrive d (Drive.burstDone e.now)
  let j := if (j.drive d).left = 0 then j.onLine surface line fun l => { l with state := .verifying } else j
  writeOn e d j

/-- A burst end of drive `d` (R71). -/
def burstEnd (e : Env) (d : Fin 4) (media : List (Nat × MediaRead)) (j : Jukebox) : Jukebox :=
  let x := j.drive d
  match x.state, x.work with
  | .transfer, some w =>
    match w.dropped, w.ref with
    | some g, _ => droppedBurstEnd e d w g media j
    | none, .flush s n => flushBurstEnd e d s n j
    | none, .request r =>
      match j.segment r with
      | none => j
      | some (q, g) =>
        match q.kind with
        | .read => readBurstEnd e d w r q g media j
        | .write => writeBurstEnd e d r q g j
  | _, _ => j

/-! ## Verify ends (R72) -/

/-- A further pass of a write segment begins: all its blocks are to be written again (R29, log entry 24). -/
def Segment.again (g : Segment) : Segment := { g with current := g.count }

/-- The drive begins a pass of `n` blocks on a side, its mounted surface or through an order (R72). -/
def beginPass (e : Env) (d : Fin 4) (p : Pass) (n target : Nat) (j : Jukebox) : Jukebox :=
  seek e d target false (j.onDrive d fun x => { x with state := .ready, pass := some p, left := n })

/-- The verify end of a DIRECT or RETAIN write (R98, R125). -/
def writeVerifyEnd (e : Env) (d : Fin 4) (passed : Bool) (r : SegRef) (q : Request) (g : Segment) (p : Pass)
    (j : Jukebox) : Jukebox :=
  if q.state = .completing then endWork e d (discardStopped g (some p) 0 (stopSegment r j))
  else if passed then
    match p.side, g.writeRoute, g.mirror with
    | .primary, .dual, some m =>
      let j := updateCache q g j
      if j.eligible m d then beginPass e d ⟨.mirror, p.failed⟩ g.count m (j.onSegment r Segment.again)
      else
        endWork e d (joinList e r (j.onSegment r (Segment.requeued (some ⟨.mirror, p.failed⟩))))
    | .primary, _, _ => endWork e d (finishSegment r .good (updateCache q g j))
    | .mirror, _, _ => endWork e d (finishSegment r .good j)
  else if p.failed + 1 < 3 then
    enterTransfer d ((j.onDrive d fun x => { x with pass := some ⟨p.side, p.failed + 1⟩, left := g.count }).onSegment r
      Segment.again)
  else
    endWork e d (finishSegment r .mediaError
      (if p.side = .primary ∧ g.htype = .retain then discardSegment g j else j))
where
  /-- The cached lines take the written data when the primary verify of a RETAIN write passes (R98). -/
  updateCache (q : Request) (g : Segment) (j : Jukebox) : Jukebox :=
    if g.htype = .retain then
      { j with
        retain := retainUpdate j.retain g.surface g.first g.end ((List.range g.count).map fun k => q.dataAt g (g.first + k)) }
    else j

/-- The verify end of a flush (R118 to R120). -/
def flushVerifyEnd (e : Env) (d : Fin 4) (passed : Bool) (f : Flush) (p : Pass) (attempts : Nat) (j : Jukebox) :
    Jukebox :=
  let range := j.flushRange f
  if passed then
    match p.side, f.writeRoute, f.mirror with
    | .primary, .dual, some m =>
      let j := j.onLine f.surface f.line fun l => { l with state := .flushing }
      let j := j.onFlush f.surface fun f => { f with primaryDone := true }
      if j.eligible m d then beginPass e d ⟨.mirror, p.failed⟩ (range.2 - range.1) m j
      else
        endWork e d (push e (.flush f.surface f.line) (j.onFlush f.surface fun f => { f with state := .queued }))
    | _, _, _ => testFlush e f.surface (examineHead e (endWork e d (sealBlocks f j)))
  else if attempts + 1 < 3 then
    let j := j.onLine f.surface f.line fun l => { l with state := .flushing, attempts := attempts + 1 }
    enterTransfer d (j.onDrive d fun x => { x with left := range.2 - range.1, pass := some ⟨p.side, attempts + 1⟩ })
  else examineHead e (endWork e d (pinLine f p.side j))

/-- The verify end of drive `d` (R72). -/
def verifyEnd (e : Env) (d : Fin 4) (passed : Bool) (j : Jukebox) : Jukebox :=
  let x := j.drive d
  match x.state, x.work, x.pass with
  | .verify, some w, some p =>
    let j := j.onDrive d fun x => { x with lastUse := e.now }
    match w.dropped, w.ref with
    | some g, _ => endWork e d (discardStopped g (some p) 0 j)
    | none, .flush s n =>
      match j.flush s, j.line s n with
      | some f, some l => flushVerifyEnd e d passed f p l.attempts j
      | _, _ => j
    | none, .request r =>
      match j.segment r with
      | some (q, g) => writeVerifyEnd e d passed r q g p j
      | none => j
  | _, _, _ => j

end Sys2Proof.Machine
end

