-- ==== Sys2Proof/Machine/PickerEvents.lean ====
section
/-! DEFINITION. Picker and door events (R78 to R82, R86 to R88, R158 to R160, R189). -/

namespace Sys2Proof.Machine

/-- The order the picker is running, in step `n` (R77); none runs during inventory (R189). -/
def Jukebox.runningStep (j : Jukebox) (n : Nat) : Option Order :=
  if j.picker.state = .busy && !j.inventoryRuns then j.runningOrder.filter fun o => o.step = n else none

/-- The picker grips platter `p` out of the place the records give it: its hands are free (R67).  A report that the
records rule out has no effect (log entry 5). -/
def Jukebox.canGrip (j : Jukebox) (p : Nat) (from' : Location) : Bool :=
  j.picker.gripped.isNone &&
    match from' with
    | .drive d => (j.drive d).platter = some p
    | l => (j.platter p).location = some l

/-- Drive `d` can take platter `p` from the picker: it has none and the picker grips `p` (R67; log entry 5). -/
def Jukebox.canSeat (j : Jukebox) (p : Nat) (d : Fin 4) : Bool :=
  j.picker.gripped = some p && (j.drive d).platter.isNone

/-- The picker ends a move at a position (R82). -/
def arriveAt (x : Position) (j : Jukebox) : Jukebox :=
  j.onPicker fun p => { p with position := some x, midway := false }

/-! ## The steps of an order -/

/-- The picker's move to a drive ends in step 1, or in inventory (R78, R189). -/
def arrives (e : Env) (j : Jukebox) : Jukebox :=
  match j.runningStep 1 with
  | some o => checkStep1 e (arriveAt (.drive o.drive) j)
  | none =>
    match j.picker.state, j.picker.inventory with
    | .inventory, some (.driveUnload d) => checkCollect e (arriveAt (.drive d) j)
    | _, _ => j

/-- The picker takes platter `p` from the mouth of drive `d`: the drive becomes EMPTY, but a drive in FAULT stays so
unless CLEAR DRIVE has begun (R73, R79, R154, R157). -/
def takeFromMouth (d : Fin 4) (p : Nat) (j : Jukebox) : Jukebox :=
  (j.onDrive d fun x =>
    let y := { x with platter := none, ejected := false, limit := none }
    if x.state = .fault && !x.clearing then y
    else { y with state := .empty, reason := none, clearing := false }).onPicker fun k => { k with gripped := some p }

/-- An EMPTY drive with its offline flag set has nothing left to do (R74, R164). -/
def Drive.leaves (x : Drive) : Bool := x.offlineFlag && x.state = .empty && x.work.isNone && x.parked.isNone

/-- The picker grips the ejected platter at a drive mouth, in step 2 or in inventory (R79, R157, R164, R189). -/
def gripsAtDrive (e : Env) (j : Jukebox) : Jukebox :=
  match j.runningStep 2 with
  | some o =>
    match o.outgoing.filter fun p => j.canGrip p (.drive o.drive) with
    | none => j
    | some p =>
      let d := o.drive
      let cleared := (j.drive d).clearing
      let j := (takeFromMouth d p j).onPlatter p fun r => { r with location := some .picker }
      let j := toStep e d (if o.kind = .turnover then 5 else 3) j
      let j := if o.forOffline then j
        else if o.kind = .returnHome && (j.drive d).leaves then goOffline d j
        else driveFree e d false j
      if cleared then examineHead e j else j
  | none =>
    match j.picker.state, j.picker.inventory with
    | .inventory, some (.driveGrip d) =>
      match (j.drive d).platter with
      | some p =>
        let j := (takeFromMouth d p j).onPlatter p fun r => { r with present := false, location := none, held := false }
        setTask e (.driveCarry d p) (driveFree e d false j)
      | none => j
    | _, _ => j

/-- The picker lets the platter it grips go in slot `p` (R79). -/
def letGo (p : Nat) (j : Jukebox) : Jukebox :=
  (arriveAt (.slot p) j).onPicker fun k => { k with gripped := none }

/-- A RETURN HOME has released its platter: it leaves the queue, and a drive with its offline flag set becomes OFFLINE
(R74, R79). -/
def endReturnHome (e : Env) (d : Fin 4) (j : Jukebox) : Jukebox :=
  let j := j.onDrive d fun x =>
    if x.offlineFlag && x.state = .empty then { x with state := .offline, offlineFlag := false } else x
  removeOrder e d j

/-- Inventory writes the orientation of the platter it has carried home from drive `d`: that of the surface the drive had
mounted (R189). -/
def orient (d : Fin 4) (p : Nat) (j : Jukebox) : Jukebox :=
  match (j.drive d).reported with
  | some m => j.onPlatter p fun r => { r with orientation := sideOf m }
  | none => j

/-- The picker releases a platter in its home slot, in step 3 or in inventory (R79, R155, R189). -/
def releasesInSlot (e : Env) (j : Jukebox) : Jukebox :=
  match j.runningStep 3 with
  | some o =>
    match o.outgoing.filter fun p => j.picker.gripped = some p with
    | none => j
    | some p =>
      let j := (letGo p j).onPlatter p fun r => { r with location := some .slot }
      if o.kind = .returnHome then examineHead e (sweep e (endReturnHome e o.drive j))
      else sweep e (toStep e o.drive 4 j)
  | none =>
    match j.picker.state, j.picker.inventory with
    | .inventory, some (.gripRelease p) => nextDrive e 0 (letGo p j)
    | .inventory, some (.driveCarry d p) => nextDrive e (d.val + 1) (orient d p (letGo p j))
    | _, _ => j

/-- The picker grips the incoming platter in its slot in step 4 (R80). -/
def gripsIncoming (e : Env) (j : Jukebox) : Jukebox :=
  match j.runningStep 4 with
  | some o =>
    match o.incoming.filter fun p => j.canGrip p .slot with
    | none => j
    | some p =>
      let j := (arriveAt (.slot p) j).onPicker fun k => { k with gripped := some p }
      let j := j.onPlatter p fun r => { r with location := some .picker }
      toStep e o.drive (if o.wanted = some (j.platter p).orientation then 6 else 5) j
  | none => j

/-- The picker's flip ends: the platter's orientation is reversed; a RETURN HOME goes on with step 3 (R80, R154). -/
def flipEnds (e : Env) (j : Jukebox) : Jukebox :=
  match j.runningStep 5, j.picker.gripped with
  | some o, some p =>
    toStep e o.drive (if o.kind = .returnHome then 3 else 6)
      (j.onPlatter p fun r => { r with orientation := otherSide r.orientation })
  | _, _ => j

/-- A drive reports the incoming platter seated: the order ends and the drive enters LOADING (R70, R81); in inventory the
drive becomes an ORPHAN (R189). -/
def seated (e : Env) (j : Jukebox) : Jukebox :=
  match j.runningStep 6 with
  | some o =>
    match o.incoming.filter fun p => j.canSeat p o.drive with
    | none => j
    | some p =>
      let d := o.drive
      let j := (arriveAt (.drive d) j).onPicker fun k => { k with gripped := none }
      let j := j.onPlatter p fun r => { r with location := some (.drive d) }
      let j := j.onDrive d fun x =>
        { x with state := .loading, platter := some p, limit := some (e.now + Config.driveLimit) }
      removeOrder e d j
  | none =>
    match j.picker.state, j.picker.inventory with
    | .inventory, some (.gripInsert p d) =>
      if j.canSeat p d then
        nextDrive e 0 (orphan d p ((arriveAt (.drive d) j).onPicker fun k => { k with gripped := none }))
      else j
    | _, _ => j

/-! ## Picker faults and recovery (R82, R158 to R160) -/

/-- The step in hand makes a move (R82, R158). -/
def Jukebox.moving (j : Jukebox) : Bool :=
  if j.picker.recovering then true
  else match j.picker.state, j.picker.inventory with
    | .inventory, some (.driveUnload _) => true
    | .inventory, some (.driveCarry _ _) => true
    | .inventory, some (.gripInsert _ _) => true
    | .inventory, _ => false
    | _, _ =>
      match j.runningOrder with
      | some o => o.step = 1 || o.step = 3 || o.step = 4 || (o.step = 6 && o.kind != .turnover)
      | none => false

/-- A picker step exceeds its limit (R82). -/
def stepOverrun (j : Jukebox) : Jukebox :=
  if (j.picker.state = .busy || j.picker.state = .inventory) && j.picker.stepLimit.isSome then
    pickerFault .stepLimit j.moving j
  else j

/-- The picker reports a grip that did not take hold: in step 4 the incoming platter is marked missing (R82, R158). -/
def gripFails (e : Env) (j : Jukebox) : Jukebox :=
  match j.runningStep 4 with
  | some o =>
    let j := pickerFault .grip true j
    match o.incoming.filter fun p => (j.platter p).location = some .slot with
    | some p => retestAll e (j.onPlatter p fun r => { r with present := false, location := none })
    | none => j
  | none =>
    match j.runningStep 2, j.picker.state, j.picker.inventory with
    | some _, _, _ => pickerFault .grip false j
    | none, .inventory, some (.driveGrip _) => pickerFault .grip false j
    | _, _, _ => j

/-- The segment of an order that ended for a missing platter goes back (R160), and its drive goes on.  One that holds a parked
context goes on by R63 and resumes it in place of R160's full pull: the model's choice (log entry 38). -/
def handBackMissing (e : Env) (d : Fin 4) (j : Jukebox) : Jukebox :=
  let x := j.drive d
  let j := j.onDrive d fun x => { x with work := none, pass := none, left := 0 }
  let j := match x.work with
    | some w =>
      match w.ref with
      | .flush s n => takeBack e s n j
      | .request r =>
        joinList e r (j.onSegment r (Segment.requeued x.pass))
    | none => j
  driveFree e d false j

/-- The HALTED order goes on at step `n` with a fresh step limit (R160). -/
def goOn (e : Env) (d : Fin 4) (n : Nat) (j : Jukebox) : Jukebox :=
  let j := j.onPicker fun p => { p with state := .busy }
  checkStep1 e (toStep e d n (j.onOrder d fun o => { o with state := .running }))

/-- The picker has no order to go on with: it is PARKED and starts the first QUEUED order (R77, R160). -/
def goParked (e : Env) (j : Jukebox) : Jukebox :=
  startNext e (j.onPicker fun p => { p with state := .parked, stepLimit := none })

/-- What the picker does with the HALTED order when recovery ends; `home` is the platter recovery carried home (R160).  An
order halted in step 1 or 2 whose outgoing platter was carried home has no row: a RETURN HOME ends and any other begins its
step again, which is the model's choice (log entry 35). -/
def afterRecovery (e : Env) (home : Option Nat) (j : Jukebox) : Jukebox :=
  match j.currentOrder with
  | none => goParked e j
  | some o =>
    let d := o.drive
    if home.isSome && home = o.outgoing && o.kind = .returnHome then
      examineHead e (endReturnHome e d (j.onPicker fun p => { p with state := .busy }))
    else if home.isSome && home = o.outgoing && o.kind = .exchange && o.step = 3 then goOn e d 4 j
    else if home.isSome && home = o.incoming then
      goOn e d 4 (j.onOrder d fun o => { o with kind := .exchange, outgoing := none })
    else if o.step = 4 && o.incoming.any fun p => !(j.platter p).present then
      goParked e (handBackMissing e d (dropOrder d j))
    else goOn e d o.step j

/-- Inventory goes on after a picker fault or a halt with its interrupted task, or with the next one when its platter has
gone home or has been taken by staff (R160, R189, R191). -/
def inventoryOn (e : Env) (j : Jukebox) : Jukebox :=
  let j := j.onPicker fun p => { p with state := .inventory }
  match j.picker.inventory, j.picker.gripped with
  | some .start, _ => beginInventory e j
  | some (.gripCheck _), none => nextDrive e 0 j
  | some (.gripRelease _), none => nextDrive e 0 j
  | some (.gripInsert _ _), none => nextDrive e 0 j
  | some (.gripStuck _), none => nextDrive e 0 j
  | some (.driveCarry d _), none => nextDrive e (d.val + 1) j
  | _, _ => checkCollect e (freshLimit e j)

/-- Recovery ends (R160). -/
def endRecovery (e : Env) (home : Option Nat) (j : Jukebox) : Jukebox :=
  let j := j.onPicker fun p => { p with recovering := false }
  if j.inventoryRuns then inventoryOn e j else afterRecovery e home j

/-- The platter the picker grips, as its sensor reports it (R159). -/
def sensed (s : Sensor) (recorded : Option Nat) : Option Nat :=
  match s with
  | .asRecorded => recorded
  | .nothing => none
  | .platter p => some p

/-- CLEAR PICKER (R159): the reason it is refused with, or its effect.  Where the sensor disagrees with the picker record only
the gripped field changes: the model's choice (log entry 37). -/
def clearPicker (e : Env) (s : Sensor) (j : Jukebox) : Except Reason Jukebox :=
  let grip := sensed s j.picker.gripped
  if j.picker.door != .closed then .error .doorOpen
  else if j.picker.state != .fault then .error .state
  else if grip.any fun p => j.picker.slotTaken.contains p then .error .state
  else
    let j := j.onPicker fun p => { p with gripped := grip, reason := none }
    match grip with
    | some _ => .ok (freshLimit e (j.onPicker fun p => { p with state := .busy, recovering := true }))
    | none => .ok (endRecovery e none j)

/-- The recovery step releases the gripped platter in its home slot, or reports failure (R159).  The sweep of the release comes
before the HALTED order is dealt with (R160), also when that is a RETURN HOME: the model's choice (log entry 12). -/
def recoveryRelease (e : Env) (released : Bool) (j : Jukebox) : Jukebox :=
  if j.picker.state = .busy && j.picker.recovering then
    match j.picker.gripped with
    | some p =>
      if released then
        let j := letGo p j
        let j := match j.picker.inventory with
          | some (.driveCarry d k) => if k = p then orient d p j else j
          | some _ => j
          | none => sweep e (j.onPlatter p fun r => { r with location := some .slot })
        endRecovery e (some p) j
      else pickerFault .grip true j
    | none => j
  else j

/-! ## The service door (R86 to R88) -/

/-- The door opens (R86). -/
def doorOpens (j : Jukebox) : Jukebox :=
  let j := j.onPicker fun p => { p with door := .opened, settleEnd := none }
  match j.picker.state with
  | .fault => j
  | .halted => j.onPicker fun p => { p with halt := p.halt.map fun h => { h with awaiting := false } }
  | s => (haltOrder j).onPicker fun p => { p with state := .halted, halt := some ⟨s, false⟩, stepLimit := none }

/-- The door closes (R87). -/
def doorCloses (e : Env) (j : Jukebox) : Jukebox :=
  if j.picker.door = .opened then
    j.onPicker fun p => { p with door := .settling, settleEnd := some (e.now + Config.settleTime) }
  else j

/-- The picker resumes from its halt (R88). -/
def resumePicker (e : Env) (j : Jukebox) : Jukebox :=
  match j.picker.halt with
  | none => j
  | some h =>
    let j := j.onPicker fun p => { p with state := h.back, halt := none }
    if h.back = .inventory then inventoryOn e j
    else if j.picker.recovering then freshLimit e j
    else match j.currentOrder with
      | some o => goOn e o.drive o.step j
      | none => goParked e j

/-- The door settle ends (R87, R88). -/
def settleEnds (e : Env) (j : Jukebox) : Jukebox :=
  if j.picker.door = .settling then
    let j := j.onPicker fun p => { p with door := .closed, settleEnd := none }
    if j.picker.state = .halted then
      if e.settings.autoResume then resumePicker e j
      else j.onPicker fun p => { p with halt := p.halt.map fun h => { h with awaiting := true } }
    else j
  else j

/-- RESUME PICKER (R88): the reason it is refused with, or its effect. -/
def resumeCommand (e : Env) (j : Jukebox) : Except Reason Jukebox :=
  if j.picker.door != .closed then .error .doorOpen
  else if j.picker.state = .halted && j.picker.halt.any fun h => h.awaiting then .ok (resumePicker e j)
  else .error .state

end Sys2Proof.Machine
end

