-- ==== Sys2Proof/Machine/Requests.lean ====
section
/-! DEFINITION. The request unit: acceptance, deadlines, cancellation and the front bus reset (R22 to R43, R83). -/

namespace Sys2Proof.Machine

/-! ## Acceptance (R23, R24, R28 to R32) -/

/-- The record of window `w` (section 1.2). -/
def VolumeMap.window (m : VolumeMap) (w : Nat) : WindowRec := m.windows.toList.getD w WindowRec.closed

/-- The level of a READ through a window (R4). -/
def WindowRec.level (r : WindowRec) : Level :=
  if r.express then .express else if r.feeClass = 0 then .staff else .counter

/-- The window of a volume address (R1). -/
def windowOf (lba : Nat) : Nat := lba / Config.windowSpan

/-- The archive block of a volume address (R1). -/
def archiveBlock (lba : Nat) : Nat := lba % Config.windowSpan

/-- The record of a segment at acceptance (R29, R30, R32). -/
def newSegment (e : Env) (j : Jukebox) (k : Kind) (x : Nat × Nat × Nat) : Segment :=
  let r := e.map.resolve x.1 x.2.1
  let g : Segment :=
    { surface := x.1, first := x.2.1, count := x.2.2, htype := r.htype, readRoute := r.readRoute
      writeRoute := r.writeRoute, mirror := r.mirror, kind := .drive, state := .queued, current := x.2.2
      attempts := 0, status := .good, readSide := r.readRoute, served := 0, billable := 0, staged := 0
      failedVerify := 0, primaryDone := false, kept := [] }
  let ram : Bool := match k with
    | .read => j.inRam g
    | .write => r.htype = .gather
  if ram then { g with kind := .ram } else g

/-- The segments of an extent of the archive space (R28). -/
def segmentsOf (e : Env) (j : Jukebox) (k : Kind) (start length : Nat) : List Segment :=
  (divide start length).map (newSegment e j k)

/-- The requests of an initiator in the table. -/
def Jukebox.requestsOf (j : Jukebox) (i : Fin 7) : Nat := (j.table.filter fun q => q.initiator = i).length

/-- A write segment fails acceptance check 9 (R24). -/
def Jukebox.notWritable (j : Jukebox) (g : Segment) : Bool :=
  g.htype = .sealed || ((g.htype = .direct || g.htype = .retain) &&
    ((j.surface g.surface).condition = .unknown || g.first < (j.surface g.surface).sealMark))

/-- Acceptance checks 2 to 9 (R24): the status a command is refused with, if any. -/
def refusal (e : Env) (j : Jukebox) (src : Src) (k : Kind) (lba length : Nat) : Option Status :=
  let w := e.map.window (windowOf lba)
  let segs := segmentsOf e j k (archiveBlock lba) length
  let longest := match k with
    | .read => 1024
    | .write => 256
  if Config.volumeBlocks ≤ lba || Config.archiveBlocks < archiveBlock lba + length then some .outOfRange
  else if !w.enabled then some .windowClosed
  else if length < 1 || longest < length then some .badLength
  else if k = .write && !w.writes then some .protect
  else if (j.request src.initiator src.tag).isSome then some .duplicateTag
  else if Config.tableEntries ≤ j.table.length || Config.initiatorEntries ≤ j.requestsOf src.initiator then
    some .queueFull
  else if segs.any fun g => g.htype = .void then some .outOfService
  else if k = .write && segs.any j.notWritable then some .protect
  else none

/-- The record of an accepted request (R23, R27). -/
def newRequest (e : Env) (gen : BitVec 8) (j : Jukebox) (src : Src) (k : Kind) (lba length : Nat)
    (data : List Block) : Request :=
  let w := e.map.window (windowOf lba)
  let segs := segmentsOf e j k (archiveBlock lba) length
  let waits := k = .write && segs.any fun g => g.htype = .gather
  { initiator := src.initiator, tag := src.tag, kind := k, window := windowOf lba, feeClass := w.feeClass
    level := match k with
      | .read => w.level
      | .write => .write
    start := archiveBlock lba, length := length, generation := gen
    state := if waits then .stagingWait else .active
    deadline := if e.settings.requestLimit = 0 then none else some (e.now + e.settings.requestLimit * 1000)
    segments := segs, delivered := 0, billable := 0, staged := 0, status := .good, accepted := e.now
    stagingExpiry := if waits then some (e.now + e.settings.stagingWait * 1000) else none
    data := data }

/-- The request unit hands a segment of a new request on (R31, R32). -/
def handOn (e : Env) (j : Jukebox) (x : SegRef × Segment) : Jukebox :=
  match x.2.kind with
  | .ram => serveRam x.1 j
  | .drive => joinList e x.1 j

/-- A new request takes its place in the table and its segments are handed on (R26, R31, R32, R109), segment 0 before
segment 1: the model's choice (log entry 12). -/
def takeIn (e : Env) (q : Request) (j : Jukebox) : Jukebox :=
  let first := j.stagingQueue.isEmpty
  let j := { j with table := j.table ++ [q] }
  if q.state = .stagingWait then (if first then examineHead e j else j)
  else (q.refs.zip q.segments).foldl (handOn e) j

/-! ## Cancellation of an exchange order (R83) -/

/-- A cancellation still reaches the order: it serves a segment and its incoming platter has not been gripped (R83). -/
def Order.cancellable (o : Order) : Bool := o.kind != .returnHome && (o.state = .queued || o.step ≤ 4)

/-- The order of drive `d` that a cancellation reaches, as it stands (R83). -/
def Jukebox.cancellableOf (j : Jukebox) (d : Fin 4) : Option Order := (j.orderOf d).filter Order.cancellable

/-- The order of drive `d`, whose segment has been withdrawn or dropped, by the table of R83: it leaves the queue, becomes a
RETURN HOME, or ends where the picker stands. -/
def cancelOrder (d : Fin 4) (j : Jukebox) : Jukebox :=
  match j.cancellableOf d with
  | none => j
  | some o =>
    if o.state = .queued then dropOrder d j
    else if o.step ≤ 3 then (becomeReturnHome d j).onOrder d fun o => { o with cancelled := true }
    else breakMove (dropOrder d j)

/-- What follows the cancellation of order `o`, as it stood: its drive is free and its incoming platter is bound no more
(R83).  A drive that still unloads is free at its grip. -/
def afterCancel (e : Env) (j : Jukebox) (o : Order) : Jukebox :=
  sweepIfInSlot e o.incoming
    (if o.state = .queued then driveFree e o.drive true j
    else if o.step ≤ 2 then j
    else driveFree e o.drive false j)

/-- What follows the cancellations of one event, whose orders are given as they stood: all have changed before the picker or a
drive goes on, so that no cancelled order begins (R40, R83).  The picker goes on first when it had the current one in step 4,
then the drives in the order of the list: the model's choice (log entry 12). -/
def goOnCancelled (e : Env) (cancelled : List Order) (j : Jukebox) : Jukebox :=
  cancelled.foldl (afterCancel e)
    (if cancelled.any fun o => o.state != .queued && o.step = 4 then pickerDone e j else j)

/-- Drive `d` holds no segment any more. -/
def Drive.letGo (x : Drive) : Drive := { x with work := none, pass := none, left := 0 }

/-- Drive `d` moves blocks or verifies for its segment; otherwise it awaits the exchange of it (R34, R39). -/
def Drive.transferring (x : Drive) : Bool := x.state = .transfer || x.state = .verify

/-! ## Deadlines (R39 to R41) -/

/-- The drive that holds a segment of the table. -/
def Jukebox.holderOf (j : Jukebox) (r : SegRef) : Option (Fin 4) :=
  allDrives.find? fun d => (j.drive d).work.any fun w => w.ref = .request r && w.dropped.isNone

/-- The drive that has parked a segment, and its parked context. -/
def Jukebox.parkedOn (j : Jukebox) (r : SegRef) : Option (Fin 4 × Parked) :=
  allDrives.findSome? fun d => ((j.drive d).parked.filter fun c => c.ref = .request r).map fun c => (d, c)

/-- The segment is in state `st`. -/
def Jukebox.segmentIs (j : Jukebox) (r : SegRef) (st : SegState) : Bool := (j.segment r).any fun x => x.2.state = st

/-- The drive that awaits an exchange for a segment IN SERVICE (R34, R39). -/
def Jukebox.awaiterOf (j : Jukebox) (r : SegRef) : Option (Fin 4) :=
  (j.holderOf r).filter fun d => j.segmentIs r .inService && !(j.drive d).transferring

/-- What the deadline of an ACTIVE request does with one of its segments and its order (R39, R40).  No retain line is discarded
here: R98 lists a stop at a burst end or a verify end only (log entry 23). -/
def expireSegment (j : Jukebox) (r : SegRef) : Jukebox :=
  match j.segment r with
  | none => j
  | some (_, g) =>
    match g.state with
    | .done => j
    | .queued => withdrawNaming r (stopSegment r j)
    | .parked =>
      match j.parkedOn r with
      | some (d, _) => (stopSegment r j).onDrive d fun x => { x with parked := none }
      | none => stopSegment r j
    | .inService =>
      match j.holderOf r with
      | some d => if (j.drive d).transferring then j else cancelOrder d ((stopSegment r j).onDrive d Drive.letGo)
      | none => stopSegment r j

/-- The platter that the parked context of a segment binds (R62). -/
def Jukebox.parkedPlatter (j : Jukebox) (r : SegRef) : Option Nat :=
  if j.segmentIs r .parked then (j.parkedOn r).map fun x => platterOf x.2.surface else none

/-- The arbiter sweeps for each platter whose binding has ended, when it is in its slot (R53). -/
def sweepUnbound (e : Env) (unbound : List (Option Nat)) (j : Jukebox) : Jukebox :=
  unbound.foldl (fun j p => sweepIfInSlot e p j) j

/-- A STAGING-WAIT request leaves the queue with a status; the next head is examined (R41). -/
def endWait (e : Env) (q : Request) (st : Status) (j : Jukebox) : Jukebox :=
  let head := j.stagingQueue.head?.any fun h => h.initiator = q.initiator && h.tag = q.tag
  let j := j.onRequest q.initiator q.tag fun q => q.endedWith st
  if head then examineHead e j else j

/-- A request meets its deadline (R39, R41).  Its segments and their orders are dealt with, then what follows from each, segment
0 before segment 1: the model's choice (log entry 12). -/
def requestDeadline (e : Env) (i : Fin 7) (t : Fin 8) (j : Jukebox) : Jukebox :=
  match j.request i t with
  | none => j
  | some q =>
    if q.deadline.isNone then j
    else match q.state with
      | .completing => j
      | .stagingWait => endWait e q .timeout j
      | .active =>
        let cancelled := q.refs.filterMap fun r => (j.awaiterOf r).bind j.cancellableOf
        let unbound := q.refs.map j.parkedPlatter
        let j := j.onRequest i t fun q => { q with state := .completing, status := .timeout }
        sweepUnbound e unbound (goOnCancelled e cancelled (q.refs.foldl expireSegment j))

/-- A request's staging wait limit expires (R41). -/
def stagingLimit (e : Env) (i : Fin 7) (t : Fin 8) (j : Jukebox) : Jukebox :=
  match j.request i t with
  | some q => if q.state = .stagingWait then endWait e q .stagingTimeout j else j
  | none => j

/-! ## The front bus reset (R42, R65) -/

/-- Drive `d` awaits an exchange for a request segment. -/
def Jukebox.awaitsExchange (j : Jukebox) (d : Fin 4) : Bool :=
  let x := j.drive d
  !x.transferring && x.work.any fun w =>
    match w.ref, w.dropped with
    | .request _, none => true
    | _, _ => false

/-- Drive `d` at a front bus reset: its parked request context and its pending preemption go, a segment it awaits an
exchange for goes, and one it is transferring runs on to its burst end without its request (R42, R65).  Every retain line
stays (R95, log entry 23). -/
def dropAt (j : Jukebox) (d : Fin 4) : Jukebox :=
  let x := j.drive d
  let j := match x.parked with
    | some c =>
      match c.ref with
      | .request _ => j.onDrive d fun x => { x with parked := none }
      | .flush _ _ => j
    | none => j
  let j := match x.work with
    | some w =>
      match w.ref, w.dropped with
      | .request r, none =>
        match j.segment r with
        | some (_, g) =>
          if x.transferring then j.onDrive d fun x => { x with work := some { w with dropped := some g } }
          else j.onDrive d Drive.letGo
        | none => j.onDrive d Drive.letGo
      | _, _ => j
    | none => j
  j.onDrive d fun x => { x with preempt := none }

/-- The platter a drive's parked request context binds. -/
def Drive.requestBinding (x : Drive) : Option Nat :=
  x.parked.bind fun c =>
    match c.ref with
    | .request _ => some (platterOf c.surface)
    | .flush _ _ => none

/-- A front bus reset on the jukebox (R42, R43): every request is dropped and the orders that served dropped segments are
cancelled, then what follows is dealt with, drive 0 first: the model's choice (log entry 12). -/
def frontReset (e : Env) (j : Jukebox) : Jukebox :=
  let awaiting := allDrives.filter j.awaitsExchange
  let cancelled := awaiting.filterMap j.cancellableOf
  let unbound := allDrives.map fun d => (j.drive d).requestBinding
  let j := awaiting.foldl (fun j d => cancelOrder d j) { allDrives.foldl dropAt j with table := [] }
  sweepUnbound e unbound (goOnCancelled e cancelled j)

/-! ## Sending statuses (R38) -/

/-- The front port can send the status of a request: it is COMPLETING and no segment of it is IN SERVICE (R38). -/
def Request.sendable (q : Request) : Bool :=
  q.state = .completing && q.segments.all fun g => g.state != .inService

/-- The request leaves the table. -/
def Jukebox.dropRequest (j : Jukebox) (i : Fin 7) (t : Fin 8) : Jukebox :=
  { j with table := j.table.filter fun q => !(q.initiator = i && q.tag = t) }

/-- The front port sends a request's status and the request leaves the table (R38). -/
def sendStatus (q : Request) (j : Jukebox) : Jukebox :=
  (j.dropRequest q.initiator q.tag).send (.status q.initiator q.tag q.status)

end Sys2Proof.Machine
end

