-- ==== Sys2Proof/Machine/Control.lean ====
section
/-! DEFINITION. The control unit: testing and carrying out control-window commands (R5, R9 to R18, R169 to R178). -/

namespace Sys2Proof.Machine

/-- What a command that is not refused leaves, and whether a value was clamped (R171, R172). -/
abbrev CmdResult := Except Reason (State × Bool)

/-! ## Codes, format checks and the lock (R172, R174 to R178) -/

/-- The code of a command (section 9.5). -/
def cmdCode : Cmd → Byte
  | .unknown code => code
  | .setWindow .. => 0x01
  | .setFixedRange .. => 0x02
  | .setVariableRange .. => 0x03
  | .setMapControl .. => 0x04
  | .setMirrorPair .. => 0x05
  | .setTariff .. => 0x10
  | .setPageSize _ => 0x11
  | .applyTariff => 0x12
  | .closeDay _ => 0x13
  | .ackClose _ => 0x14
  | .setService .. => 0x20
  | .setTiming .. => 0x21
  | .flushAll => 0x22
  | .resumePicker => 0x23
  | .clearDrive _ => 0x24
  | .clearPicker _ => 0x25
  | .takeOffline .. => 0x26
  | .releaseQuarantine .. => 0x30
  | .restoreSeal .. => 0x31
  | .setControlSet _ => 0x40
  | .raiseLock _ => 0x41

/-- The lowest lock level that freezes a command, if any does (R174). -/
def cmdFrozenFrom : Cmd → Option Nat
  | .setWindow .. => some 1
  | .setTariff .. => some 2
  | .setPageSize _ => some 2
  | .applyTariff => some 2
  | .closeDay apply => if apply = 1 then some 2 else none
  | .setFixedRange .. => some 3
  | .setVariableRange .. => some 3
  | .setMapControl .. => some 3
  | .setMirrorPair .. => some 3
  | .setControlSet _ => some 3
  | _ => none

/-- A yes/no field holds 00h or 01h (R172). -/
def isFlag (b : Byte) : Bool := b.toNat ≤ 1

/-- A flag field as a value (R172). -/
def flag (b : Byte) : Bool := b = 1

/-- A read route of its code (R178). -/
def sideOfCode (b : Byte) : Side := if b = 1 then .mirror else .primary

/-- A write route of its code (R178). -/
def routeOfCode (b : Byte) : WriteRoute := if b = 1 then .dual else .primary

/-- A handling type code is in use (section 1.3, R178). -/
def isType (b : Byte) : Bool := (HType.ofCode b.toNat).isSome

/-- The handling type of a code; the format checks let no other code through. -/
def typeOfCode (b : Byte) : HType := (HType.ofCode b.toNat).getD .void

/-- The format checks of R171 check 4 (R172, R173, R175, R177, R178). -/
def cmdFormatOk : Cmd → Bool
  | .setWindow _ enabled _ express writes => isFlag enabled && isFlag express && isFlag writes
  | .setFixedRange _ t r w => isType t && isFlag r && isFlag w
  | .setVariableRange _ valid _ _ t r w => isFlag valid && (valid = 0 || (isType t && isFlag r && isFlag w))
  | .setMapControl m f t r => isFlag m && isFlag f && isType t && isFlag r
  | .setMirrorPair _ valid _ _ => isFlag valid
  | .closeDay apply => isFlag apply
  | .setService mask dispatch tier back preempt autoResume =>
    mask.toNat < 32 && isFlag dispatch && tier.toNat ≤ 3 && back.toNat ≤ 7 && isFlag preempt && isFlag autoResume
  | .takeOffline _ f => isFlag f
  | .releaseQuarantine _ action => isFlag action
  | .setControlSet members => 1 ≤ members.toNat && members.toNat < 128
  | _ => true

/-! ## The volume map's commands (R5, R9 to R12, R15, R17, R18, R20) -/

/-- SET WINDOW (R5). -/
def runSetWindow (window enabled feeClass express writes : Byte) (s : State) : CmdResult :=
  if 7 ≤ window.toNat || 7 < feeClass.toNat then .error .badValue
  else
    .ok ({ s with map := { s.map with
      windows := s.map.windows.setIfInBounds window.toNat ⟨flag enabled, feeClass.toNat, flag express, flag writes⟩ } },
      false)

/-- A map that passes its trial takes effect (R17, R18, R20). -/
def changeMap (m : VolumeMap) (s : State) : CmdResult :=
  match trial s.map m s.jb with
  | some r => .error r
  | none => .ok ({ s with map := m, jb := { s.jb with retain := retainAfterMap s.map m s.jb.retain } }, false)

/-- A route other than PRIMARY is refused while routing enable is off (R12). -/
def routeRefused (s : State) (r w : Byte) : Bool := (r != 0 || w != 0) && !s.map.control.routing

/-- SET FIXED RANGE (R9, R12). -/
def runSetFixedRange (index t r w : Byte) (s : State) : CmdResult :=
  if 31 < index.toNat || typeOfCode t = .gather then .error .badValue
  else if routeRefused s r w then .error .state
  else changeMap { s.map with
    fixed := s.map.fixed.setIfInBounds index.toNat ⟨typeOfCode t, sideOfCode r, routeOfCode w⟩ } s

/-- A variable range at its cold-start values (R10). -/
def VarRange.cold : VarRange := ⟨false, 0, 0, .void, .primary, .primary⟩

/-- SET VARIABLE RANGE (R10, R12). -/
def runSetVariableRange (index valid first last t r w : Byte) (s : State) : CmdResult :=
  if 15 < index.toNat then .error .badValue
  else if valid = 0 then
    changeMap { s.map with vars := s.map.vars.setIfInBounds index.toNat VarRange.cold } s
  else if 191 < first.toNat || 191 < last.toNat || last.toNat < first.toNat ||
      (typeOfCode t = .gather && first.toNat ≤ 1) then .error .badValue
  else if routeRefused s r w then .error .state
  else changeMap { s.map with
    vars := s.map.vars.setIfInBounds index.toNat
      ⟨true, first.toNat, last.toNat, typeOfCode t, sideOfCode r, routeOfCode w⟩ } s

/-- SET MAP CONTROL (R11). -/
def runSetMapControl (m f t r : Byte) (s : State) : CmdResult :=
  changeMap { s.map with control := ⟨flag m, flag f, typeOfCode t, flag r⟩ } s

/-- A surface stands in a valid pair other than pair `index` (R15 check 4). -/
def VolumeMap.pairedElsewhere (m : VolumeMap) (index surface : Nat) : Bool :=
  m.pairs.toList.zipIdx.any fun p => p.2 != index && p.1.valid && (p.1.primary = surface || p.1.mirror = surface)

/-- SET MIRROR PAIR (R15; log entry 19 on the surfaces of a pair made invalid). -/
def runSetMirrorPair (index valid primary mirror : Byte) (s : State) : CmdResult :=
  let write (p : MirrorPair) : CmdResult :=
    .ok ({ s with map := { s.map with pairs := s.map.pairs.setIfInBounds index.toNat p } }, false)
  if 15 < index.toNat then .error .badValue
  else if valid = 0 then
    match s.map.pairs[index.toNat]? with
    | some p => write { p with valid := false }
    | none => .error .badValue
  else if 191 < primary.toNat || 191 < mirror.toNat then .error .badValue
  else if platterOf primary.toNat = platterOf mirror.toNat then .error .badValue
  else if !s.map.sealedThroughout mirror.toNat then .error .badValue
  else if s.map.pairedElsewhere index.toNat primary.toNat || s.map.pairedElsewhere index.toNat mirror.toNat then
    .error .paired
  else write ⟨true, primary.toNat, mirror.toNat⟩

/-! ## The fee unit's commands (R142 to R148) -/

/-- A command of the fee unit alone. -/
def onFee (s : State) (r : Except Reason (FeeUnit × Bool)) : CmdResult :=
  match r with
  | .error x => .error x
  | .ok (f, c) => .ok ({ s with fee := f }, c)

/-- SET TARIFF (R142). -/
def runSetTariff (cls : Byte) (f : BitVec 16) (n g : Byte) (k : BitVec 16) (sur : Byte) (c : BitVec 24) (s : State) :
    CmdResult :=
  onFee s (s.fee.setTariff cls.toNat f.toNat n.toNat g.toNat k.toNat sur.toNat c.toNat)

/-- SET PAGE SIZE (R143). -/
def runSetPageSize (p : Byte) (s : State) : CmdResult := onFee s (s.fee.setPage p.toNat)

/-- APPLY TARIFF (R144). -/
def runApplyTariff (s : State) : CmdResult := onFee s s.fee.apply

/-- CLOSE DAY (R146, R147). -/
def runCloseDay (apply : Byte) (s : State) : CmdResult :=
  onFee s (s.fee.closeDay (s.jb.table.countP Request.inFlight) (flag apply))

/-- ACK CLOSE (R148). -/
def runAckClose (day : BitVec 16) (s : State) : CmdResult := onFee s (s.fee.ackClose day)

/-! ## Service and timing (R46, R50, R175, R176) -/

/-- The settings after SET SERVICE (R46, R175). -/
def serviceSettings (mask dispatch tier back preempt autoResume : Byte) (t : Settings) : Settings :=
  { t with
    levelMask := mask.setWidth 5
    dispatch := flag dispatch
    tierCode := if tier.toNat = 3 then 0 else tier.toNat
    backCode := if 6 ≤ back.toNat then 0 else back.toNat
    preempt := flag preempt
    autoResume := flag autoResume }

/-- The new settings let no preemption stand (R50). -/
def Settings.noPreemption (t : Settings) : Bool := !t.dispatch || !t.enables .express || !t.preempt

/-- The new settings open work that the old ones held back (R50). -/
def opensWork (old new : Settings) : Bool :=
  (!old.dispatch && new.dispatch) ||
    [Level.express, .counter, .staff, .write, .flush].any fun l => !old.enables l && new.enables l

/-- Every pending preemption is withdrawn (R50). -/
def withdrawAll (j : Jukebox) : Jukebox := { j with drives := j.drives.map fun x => { x with preempt := none } }

/-- SET SERVICE (R50, R175). -/
def runSetService (mask dispatch tier back preempt autoResume : Byte) (s : State) : CmdResult :=
  let t := serviceSettings mask dispatch tier back preempt autoResume s.settings
  let s' := { s with settings := t }
  let j := if t.noPreemption then withdrawAll s.jb else s.jb
  let j := if opensWork s.settings t then sweep s'.env j else j
  .ok ({ s' with jb := j }, tier.toNat = 3 || 6 ≤ back.toNat)

/-- The settings after SET TIMING (R176). -/
def timingSettings (dwell lowWater lineAge staging request : Nat) (t : Settings) : Settings :=
  { t with
    dwell := clamp 0 10000 dwell
    lowWater := clamp 0 31 lowWater
    lineAge := clamp 1 600 lineAge
    stagingWait := clamp 1 300 staging
    requestLimit := clamp 0 3600 request }

/-- SET TIMING (R176). -/
def runSetTiming (dwell : BitVec 16) (lowWater : Byte) (lineAge staging request : BitVec 16) (s : State) : CmdResult :=
  .ok ({ s with
      settings := timingSettings dwell.toNat lowWater.toNat lineAge.toNat staging.toNat request.toNat s.settings },
    10000 < dwell.toNat || 31 < lowWater.toNat || clamp 1 600 lineAge.toNat != lineAge.toNat ||
      clamp 1 300 staging.toNat != staging.toNat || 3600 < request.toNat)

/-! ## The commands of the jukebox (R74, R88, R115, R123, R124, R157, R159, R164, R188) -/

/-- A command of the jukebox alone. -/
def onJukebox (s : State) (r : Except Reason Jukebox) : CmdResult :=
  match r with
  | .error x => .error x
  | .ok j => .ok ({ s with jb := j }, false)

/-- FLUSH ALL (R115). -/
def runFlushAll (s : State) : CmdResult := onJukebox s (.ok (flushAllLines s.env s.jb))

/-- RESUME PICKER (R88). -/
def runResumePicker (s : State) : CmdResult := onJukebox s (resumeCommand s.env s.jb)

/-- The drive of a drive number; a number above 03h names none (R177). -/
def driveOf (b : Byte) : Option (Fin 4) := if h : b.toNat < 4 then some ⟨b.toNat, h⟩ else none

/-- CLEAR DRIVE (R157). -/
def runClearDrive (drive : Byte) (s : State) : CmdResult :=
  match driveOf drive with
  | none => .error .badValue
  | some d => onJukebox s (clearDrive s.env d s.jb)

/-- CLEAR PICKER (R159). -/
def runClearPicker (sensor : Sensor) (s : State) : CmdResult := onJukebox s (clearPicker s.env sensor s.jb)

/-- TAKE OFFLINE and RETURN DRIVE (R74, R164, R177). -/
def runTakeOffline (drive f : Byte) (s : State) : CmdResult :=
  match driveOf drive with
  | none => .error .badValue
  | some d => onJukebox s (if flag f then returnDrive s.env d s.jb else takeOffline s.env d s.jb)

/-- RELEASE QUARANTINE, RETRY and DISCARD (R123, R124, R177). -/
def runReleaseQuarantine (surface action : Byte) (s : State) : CmdResult :=
  if 191 < surface.toNat then .error .badValue
  else match (s.jb.surface surface.toNat).quarantine with
    | none => .error .notQuarantined
    | some q =>
      onJukebox s (.ok (if flag action then discardQuarantine s.env surface.toNat s.jb
        else retryQuarantine s.env surface.toNat q s.jb))

/-- The record of a surface that RESTORE SEAL has made KNOWN (R188). -/
def SurfaceRec.restored (mark : Nat) (r : SurfaceRec) : SurfaceRec :=
  { r with sealMark := mark, appendPoint := mark, condition := .known }

/-- RESTORE SEAL (R188). -/
def runRestoreSeal (surface : Byte) (mark : BitVec 24) (s : State) : CmdResult :=
  if 191 < surface.toNat then .error .badValue
  else if (s.jb.surface surface.toNat).condition = .known then .error .state
  else
    .ok ({ s with jb := s.jb.onSurface surface.toNat (SurfaceRec.restored (clamp 0 Config.surfaceBlocks mark.toNat)) },
      Config.surfaceBlocks < mark.toNat)

/-! ## The control unit's own commands (R173, R174) -/

/-- SET CONTROL SET (R173). -/
def runSetControlSet (members : Byte) (s : State) : CmdResult :=
  .ok ({ s with control := { s.control with members := members.setWidth 7 } }, false)

/-- RAISE LOCK (R174). -/
def runRaiseLock (level : Byte) (s : State) : CmdResult :=
  if level.toNat < 1 || 3 < level.toNat || level.toNat ≤ s.control.lock then .error .badValue
  else .ok ({ s with control := { s.control with lock := level.toNat } }, false)

/-! ## Testing a command and its response (R169 to R171) -/

/-- The own checks and the effect of a command (R171 check 5). -/
def runCmd (c : Cmd) (s : State) : CmdResult :=
  match c with
  | .unknown _ => .error .unknownCommand
  | .setWindow w e f x p => runSetWindow w e f x p s
  | .setFixedRange i t r w => runSetFixedRange i t r w s
  | .setVariableRange i v a b t r w => runSetVariableRange i v a b t r w s
  | .setMapControl m f t r => runSetMapControl m f t r s
  | .setMirrorPair i v p m => runSetMirrorPair i v p m s
  | .setTariff cls f n g k sur c => runSetTariff cls f n g k sur c s
  | .setPageSize p => runSetPageSize p s
  | .applyTariff => runApplyTariff s
  | .closeDay a => runCloseDay a s
  | .ackClose d => runAckClose d s
  | .setService m d t b p a => runSetService m d t b p a s
  | .setTiming d l a w r => runSetTiming d l a w r s
  | .flushAll => runFlushAll s
  | .resumePicker => runResumePicker s
  | .clearDrive d => runClearDrive d s
  | .clearPicker x => runClearPicker x s
  | .takeOffline d f => runTakeOffline d f s
  | .releaseQuarantine x a => runReleaseQuarantine x a s
  | .restoreSeal x m => runRestoreSeal x m s
  | .setControlSet m => runSetControlSet m s
  | .raiseLock l => runRaiseLock l s

/-- The command names no code of the command table (R171 check 1). -/
def cmdUnknown : Cmd → Bool
  | .unknown _ => true
  | _ => false

/-- An initiator is a member of the control set (R173). -/
def State.permits (s : State) (i : Fin 7) : Bool := s.control.members.getLsbD i

/-- A command is frozen at the lock level (R174). -/
def State.frozen (s : State) (c : Cmd) : Bool := (cmdFrozenFrom c).any fun l => l ≤ s.control.lock

/-- The tests of R171 in order, and the effect of a command that passes them. -/
def tryCmd (i : Fin 7) (c : Cmd) (s : State) : CmdResult :=
  if cmdUnknown c then .error .unknownCommand
  else if !s.permits i then .error .notPermitted
  else if s.frozen c then .error .locked
  else if !cmdFormatOk c then .error .badValue
  else runCmd c s

/-- The response record after a command (R169, R170). -/
def Response.after (code : Byte) (o : CmdOutcome) (r : Reason) (old : Response) : Response :=
  ⟨code, o, r, old.sequence + 1⟩

/-- The initiator's response record takes the outcome and the front bus its status (R169). -/
def State.respond (src : Src) (code : Byte) (o : CmdOutcome) (r : Reason) (s : State) : State :=
  { s with
    control := { s.control with
      responses := s.control.responses.set src.initiator
        (s.control.responses[src.initiator].after code o r) }
    jb := s.jb.send (.status src.initiator src.tag (if o = .refused then .controlRefused else .good)) }

/-- The front port fetches the command record (R169). -/
def State.fetchRecord (src : Src) (s : State) : State :=
  { s with jb := s.jb.send (.fetch src.initiator src.tag (7 * Config.windowSpan) 1) }

/-- A control-window command (R169, R171). -/
def control (src : Src) (c : Cmd) (s : State) : State :=
  let s := s.fetchRecord src
  match tryCmd src.initiator c s with
  | .error r => s.respond src (cmdCode c) .refused r
  | .ok (t, clamped) => t.respond src (cmdCode c) (if clamped then .clamped else .done) .none

/-! ## The command record (R178) -/

/-- Byte `k` of a block. -/
def byteAt (b : Block) (k : Nat) : Byte := b.extractLsb' (8 * k) 8

/-- The two bytes of a block from `k` on, least significant first. -/
def pairAt (b : Block) (k : Nat) : BitVec 16 := b.extractLsb' (8 * k) 16

/-- The three bytes of a block from `k` on, least significant first. -/
def tripleAt (b : Block) (k : Nat) : BitVec 24 := b.extractLsb' (8 * k) 24

/-- The command of a command record (R178). -/
def decodeRecord (b : Block) : Cmd :=
  match (byteAt b 0).toNat with
  | 0x01 => .setWindow (byteAt b 1) (byteAt b 2) (byteAt b 3) (byteAt b 4) (byteAt b 5)
  | 0x02 => .setFixedRange (byteAt b 1) (byteAt b 2) (byteAt b 3) (byteAt b 4)
  | 0x03 =>
    .setVariableRange (byteAt b 1) (byteAt b 2) (byteAt b 3) (byteAt b 4) (byteAt b 5) (byteAt b 6) (byteAt b 7)
  | 0x04 => .setMapControl (byteAt b 1) (byteAt b 2) (byteAt b 3) (byteAt b 4)
  | 0x05 => .setMirrorPair (byteAt b 1) (byteAt b 2) (byteAt b 3) (byteAt b 4)
  | 0x10 =>
    .setTariff (byteAt b 1) (pairAt b 2) (byteAt b 4) (byteAt b 5) (pairAt b 6) (byteAt b 8) (tripleAt b 9)
  | 0x11 => .setPageSize (byteAt b 1)
  | 0x12 => .applyTariff
  | 0x13 => .closeDay (byteAt b 1)
  | 0x14 => .ackClose (pairAt b 1)
  | 0x20 => .setService (byteAt b 1) (byteAt b 2) (byteAt b 3) (byteAt b 4) (byteAt b 5) (byteAt b 6)
  | 0x21 => .setTiming (pairAt b 1) (byteAt b 3) (pairAt b 4) (pairAt b 6) (pairAt b 8)
  | 0x22 => .flushAll
  | 0x23 => .resumePicker
  | 0x24 => .clearDrive (byteAt b 1)
  | 0x25 => .clearPicker .asRecorded
  | 0x26 => .takeOffline (byteAt b 1) (byteAt b 2)
  | 0x30 => .releaseQuarantine (byteAt b 1) (byteAt b 2)
  | 0x31 => .restoreSeal (byteAt b 1) (tripleAt b 2)
  | 0x40 => .setControlSet (byteAt b 1)
  | 0x41 => .raiseLock (byteAt b 1)
  | _ => .unknown (byteAt b 0)

/-- A block holding a list of bytes from byte 0 on, every further byte 00h. -/
def blockOf : List Byte → Block
  | [] => 0
  | b :: rest => b.setWidth 8192 ||| (blockOf rest <<< 8)

/-- The two bytes of a 16-bit parameter, least significant first (section 9.6). -/
def pairBytes (v : BitVec 16) : List Byte := [v.extractLsb' 0 8, v.extractLsb' 8 8]

/-- The three bytes of a 24-bit parameter, least significant first (section 9.6). -/
def tripleBytes (v : BitVec 24) : List Byte := [v.extractLsb' 0 8, v.extractLsb' 8 8, v.extractLsb' 16 8]

/-- The parameters of a command record, from byte 1 on (R178). -/
def parameterBytes : Cmd → List Byte
  | .unknown _ => []
  | .setWindow window enabled feeClass express writes => [window, enabled, feeClass, express, writes]
  | .setFixedRange index htype readRoute writeRoute => [index, htype, readRoute, writeRoute]
  | .setVariableRange index valid first last htype readRoute writeRoute =>
    [index, valid, first, last, htype, readRoute, writeRoute]
  | .setMapControl mapEnable fixedEnable defaultType routing => [mapEnable, fixedEnable, defaultType, routing]
  | .setMirrorPair index valid primary mirror => [index, valid, primary, mirror]
  | .setTariff cls f n g k sur c => [cls] ++ pairBytes f ++ [n, g] ++ pairBytes k ++ [sur] ++ tripleBytes c
  | .setPageSize p => [p]
  | .applyTariff => []
  | .closeDay apply => [apply]
  | .ackClose day => pairBytes day
  | .setService mask dispatch tier back preempt autoResume => [mask, dispatch, tier, back, preempt, autoResume]
  | .setTiming dwell lowWater lineAge staging request =>
    pairBytes dwell ++ [lowWater] ++ pairBytes lineAge ++ pairBytes staging ++ pairBytes request
  | .flushAll => []
  | .resumePicker => []
  | .clearDrive drive => [drive]
  | .clearPicker _ => []
  | .takeOffline drive flag => [drive, flag]
  | .releaseQuarantine surface action => [surface, action]
  | .restoreSeal surface mark => [surface] ++ tripleBytes mark
  | .setControlSet members => [members]
  | .raiseLock level => [level]

/-- The command record of a command (R178). -/
def encodeRecord (c : Cmd) : Block := blockOf (cmdCode c :: parameterBytes c)

/-! ## Access to the window (R167) -/

/-- A control-window block number is in use (section 9.1, R167 check 2). -/
def blockInUse (block : Nat) : Bool := block ≤ 13 || (16 ≤ block && block ≤ 207)

/-- The checks of R167: the status an access is refused with, if any. -/
def accessRefusal (k : Kind) (block length : Nat) : Option Status :=
  if length != 1 then some .badLength
  else if !blockInUse block then some .outOfRange
  else if k = .write && block != 0 then some .protect
  else none

end Sys2Proof.Machine
end

