-- ==== Sys2Proof/Machine/Readback.lean ====
section
/-! DEFINITION. Readback: the contents of the control-window blocks (R44, R66, R89, R128, R150, R166, R179 to R183).
Log entry 20 names the encodings R182 leaves open. -/

namespace Sys2Proof.Machine

/-! ## Fields -/

/-- A number in `n` bytes, least significant first (section 9.6). -/
def le (n v : Nat) : List Byte := (List.range n).map fun k => BitVec.ofNat 8 (v / 256 ^ k)

/-- A yes/no field (R172). -/
def yes (b : Bool) : List Byte := [if b then 1 else 0]

/-- An absent optional field (R182). -/
def absent (n : Nat) : List Byte := List.replicate n 0xFF

/-- An optional number in `n` bytes. -/
def opt (n : Nat) : Option Nat → List Byte
  | some v => le n v
  | none => absent n

/-- A time in ms, in 4 bytes, stopping at 4,294,967,295 (R182). -/
def ms (v : Nat) : List Byte := le 4 (min Config.maxCount v)

/-- An optional time. -/
def optMs : Option Nat → List Byte
  | some v => ms v
  | none => absent 4

/-- The time left to a deadline (R182). -/
def timeLeft (now : Nat) (d : Option Nat) : List Byte := optMs (d.map fun x => x - now)

/-- A block of 1,024 bytes filled from byte 0; the rest reads 00h (R182). -/
def padTo (n : Nat) (l : List Byte) : List Byte := (l ++ List.replicate n 0).take n

/-! ## Positions of named values in their lists (R182) -/

/-- The code of a side or read route (R178, R180). -/
def Side.code : Side → Nat
  | .primary => 0
  | .mirror => 1

/-- The code of a write route (R178). -/
def WriteRoute.code : WriteRoute → Nat
  | .primary => 0
  | .dual => 1

/-- The place of a drive state (R69). -/
def DriveState.code : DriveState → Nat
  | .empty => 0
  | .loading => 1
  | .ready => 2
  | .transfer => 3
  | .verify => 4
  | .unloading => 5
  | .fault => 6
  | .offline => 7

/-- The place of a drive's fault reason (R75). -/
def DriveReason.code : DriveReason → Nat
  | .spinUpLimit => 0
  | .spinDownLimit => 1
  | .eject => 2
  | .hardware => 3
  | .orphan => 4

/-- The place of a picker state (R85). -/
def PickerState.code : PickerState → Nat
  | .inventory => 0
  | .parked => 1
  | .busy => 2
  | .halted => 3
  | .fault => 4

/-- The place of a door phase (R85). -/
def DoorPhase.code : DoorPhase → Nat
  | .closed => 0
  | .opened => 1
  | .settling => 2

/-- The place of a picker's fault reason (R85). -/
def PickerReason.code : PickerReason → Nat
  | .stepLimit => 0
  | .grip => 1

/-- The place of the state a halt returns to (R85). -/
def backCode : PickerState → Nat
  | .parked => 0
  | .busy => 1
  | _ => 2

/-- The place of an order kind (R76). -/
def OrderKind.code : OrderKind → Nat
  | .exchange => 0
  | .turnover => 1
  | .returnHome => 2

/-- The place of an order state (R76). -/
def OrderState.code : OrderState → Nat
  | .queued => 0
  | .running => 1
  | .halted => 2

/-- The place of a platter side (R67, R76). -/
def sideUpCode : PlatterSide → Nat
  | .a => 0
  | .b => 1

/-- The place of a tier (R45). -/
def Tier.code : Tier → Nat
  | .counter => 0
  | .backOffice => 1

/-- The place of a request kind (R22). -/
def Kind.code : Kind → Nat
  | .read => 0
  | .write => 1

/-- The place of a request state (R33). -/
def ReqState.code : ReqState → Nat
  | .stagingWait => 0
  | .active => 1
  | .completing => 2

/-- The place of a segment kind (R29). -/
def SegKind.code : SegKind → Nat
  | .ram => 0
  | .drive => 1

/-- The place of a segment state (R34). -/
def SegState.code : SegState → Nat
  | .queued => 0
  | .inService => 1
  | .parked => 2
  | .done => 3

/-- The code of a command outcome (R179). -/
def CmdOutcome.code : CmdOutcome → Nat
  | .done => 0
  | .clamped => 1
  | .refused => 2

/-- The code of a reason (R179). -/
def Reason.code : Reason → Nat
  | .none => 0
  | .unknownCommand => 1
  | .notPermitted => 2
  | .badValue => 3
  | .locked => 4
  | .updatePending => 5
  | .closeUnread => 6
  | .busySurface => 7
  | .paired => 8
  | .notQuarantined => 9
  | .state => 10
  | .doorOpen => 11

/-- The place of an update state (R141). -/
def UpdateState.code : UpdateState → Nat
  | .current => 0
  | .deferred => 1

/-- The code of the state of the close record (R181). -/
def CloseState.code : CloseState → Nat
  | .empty => 0
  | .unread => 1
  | .acknowledged => 2

/-- The code of a surface's condition (R180). -/
def Condition.code : Condition → Nat
  | .known => 0
  | .unknown => 1

/-- The code of a line state (R180). -/
def LineState.code : LineState → Nat
  | .filling => 1
  | .flushing => 2
  | .verifying => 3
  | .pinned => 4

/-- The code of a flush segment's state (R180). -/
def FlushState.code : FlushState → Nat
  | .queued => 1
  | .inService => 2
  | .parked => 3

/-! ## Block 0: the response record (R179) -/

/-- The response record of an initiator. -/
def responseBlock (i : Fin 7) (s : State) : List Byte :=
  let r := s.control.responses[i]
  [r.code] ++ le 1 r.outcome.code ++ le 1 r.reason.code ++ [r.sequence] ++ le 1 i.val

/-! ## Block 1: device status (R183) -/

/-- The drive or slot of the check inventory has in hand, as the picker's activity shows it (R85; log entry 20). -/
def InvTask.inHand : InvTask → Nat
  | .start => 0xFF
  | .gripCheck p => p
  | .gripRelease p => p
  | .gripInsert _ d => 96 + d.val
  | .gripStuck p => p
  | .driveCheck d => 96 + d.val
  | .driveUnload d => 96 + d.val
  | .driveGrip d => 96 + d.val
  | .driveCarry d _ => 96 + d.val
  | .slot n => n

/-- The drive or slot inventory has reached (R183): in the second task the slot checked last, as section 10.6 shows it.  That
none shows until slot 0 has been checked, and what shows in the first task, is the model's choice (log entry 20). -/
def InvTask.reached : InvTask → Option Nat
  | .start => none
  | .gripCheck p => some p
  | .gripRelease p => some p
  | .gripInsert _ d => some (96 + d.val)
  | .gripStuck p => some p
  | .driveCheck d => some (96 + d.val)
  | .driveUnload d => some (96 + d.val)
  | .driveGrip d => some (96 + d.val)
  | .driveCarry d _ => some (96 + d.val)
  | .slot 0 => none
  | .slot (n + 1) => some n

/-- The device status. -/
def statusBlock (s : State) : List Byte :=
  let j := s.jb
  le 1 j.picker.state.code ++ le 1 j.picker.door.code ++ yes s.batteryLow ++ le 1 s.fee.update.code ++
    [s.fee.generation] ++ le 2 s.fee.day.toNat ++ le 1 j.freeLines ++ le 1 j.table.length ++
    (List.finRange 7).flatMap (fun i => le 1 (j.requestsOf i)) ++ le 1 j.stagingQueue.length ++
    le 1 s.control.lock ++ [s.control.members.setWidth 8] ++ yes j.inventoryRuns ++
    opt 1 (j.picker.inventory.bind InvTask.reached)

/-! ## Blocks 2 to 4: the volume map (R21) -/

/-- A window record (section 1.2). -/
def WindowRec.bytes (r : WindowRec) : List Byte := yes r.enabled ++ le 1 r.feeClass ++ yes r.express ++ yes r.writes

/-- The window table; window 7 reads enabled, class 0, not express, writes permitted (R3). -/
def windowBlock (m : VolumeMap) : List Byte := (m.windows.toList ++ [(⟨true, 0, false, true⟩ : WindowRec)]).flatMap WindowRec.bytes

/-- A fixed range (R9). -/
def FixedRange.bytes (r : FixedRange) : List Byte := le 1 r.htype.code ++ le 1 r.readRoute.code ++ le 1 r.writeRoute.code

/-- A variable range (R10). -/
def VarRange.bytes (r : VarRange) : List Byte :=
  yes r.valid ++ le 1 r.first ++ le 1 r.last ++ le 1 r.htype.code ++ le 1 r.readRoute.code ++ le 1 r.writeRoute.code

/-- The extent map and map control (R9 to R11, R21). -/
def mapBlock (m : VolumeMap) : List Byte :=
  m.fixed.toList.flatMap FixedRange.bytes ++ m.vars.toList.flatMap VarRange.bytes ++
    yes m.control.mapEnable ++ yes m.control.fixedEnable ++ le 1 m.control.defaultType.code ++ yes m.control.routing

/-- A mirror pair (R15). -/
def MirrorPair.bytes (p : MirrorPair) : List Byte := yes p.valid ++ le 1 p.primary ++ le 1 p.mirror

/-- The mirror table (R15, R21). -/
def mirrorBlock (m : VolumeMap) : List Byte := m.pairs.toList.flatMap MirrorPair.bytes

/-! ## Blocks 5 to 8: the fee unit (R150, R181) -/

/-- A class entry (R131). -/
def ClassEntry.bytes (c : ClassEntry) : List Byte :=
  le 2 c.f ++ le 1 c.n ++ le 1 c.g ++ le 2 c.k ++ le 1 c.s ++ le 3 c.c

/-- A tariff (R131, R150). -/
def Tariff.bytes (t : Tariff) : List Byte := le 1 t.page ++ t.classes.toList.flatMap ClassEntry.bytes

/-- The active and previous tariffs and the generation counts (R150). -/
def tariffBlock (f : FeeUnit) : List Byte :=
  f.active.bytes ++ [f.generation] ++ f.previous.bytes ++ [f.generation - 1] ++ le 1 f.activeCount ++
    le 1 f.previousCount

/-- A tally record (R181). -/
def Tally.bytes (i c : Nat) (t : Tally) : List Byte :=
  le 4 t.amount ++ le 4 t.pages ++ le 4 t.requests ++ yes t.saturated ++ le 1 i ++ le 1 c ++ [0]

/-- The 49 tally records, the 14 side counts and the tally-lost flag (R181). -/
def tallyBytes (tallies : Vector (Vector Tally 7) 7) (sides : Vector SideCounts 7) (lost : Bool) : List Byte :=
  (tallies.toList.zipIdx.flatMap fun x => x.1.toList.zipIdx.flatMap fun y => y.1.bytes x.2 (y.2 + 1)) ++
    (sides.toList.flatMap fun x => le 4 x.failed ++ le 4 x.staged) ++ yes lost

/-- The live tally (R181). -/
def tallyBlock (f : FeeUnit) : List Byte := tallyBytes f.tallies f.sides f.tallyLost

/-- The close record and its state (R181). -/
def closeBlock (c : CloseRecord) : List Byte :=
  match c.state with
  | .empty => []
  | st =>
    tallyBytes c.tallies c.sides c.tallyLost ++ [0] ++ le 2 c.day.toNat ++ [c.generation] ++ le 1 c.inFlight ++
      le 1 st.code

/-! ## Block 9: arbiter, drives, picker, orders and platters (R66, R89, R166, R182) -/

/-- The arbiter's settings and the three limits (R46, R66). -/
def settingsBytes (t : Settings) (last : Tier) : List Byte :=
  [t.levelMask.setWidth 8] ++ yes t.dispatch ++ le 1 t.tierCode ++ le 1 t.backCode ++ yes t.preempt ++ ms t.dwell ++
    le 1 t.lowWater ++ le 1 last.code ++ ms (t.lineAge * 1000) ++ ms (t.stagingWait * 1000) ++
    ms (t.requestLimit * 1000)

/-- The moment a queued segment's age runs from: its request's acceptance, or its line's due moment (R182). -/
def Jukebox.ageFrom (j : Jukebox) : WorkRef → Option Nat
  | .request r => (j.request r.initiator r.tag).map fun q => q.accepted
  | .flush s _ => (j.flush s).map fun f => f.due

/-- The count and the oldest age of a level's list (R66, R182). -/
def levelBytes (now : Nat) (j : Jukebox) (l : Level) : List Byte :=
  let items := j.queued l
  le 1 items.length ++ optMs ((items.head?.bind fun it => j.ageFrom it.ref).map fun t => now - t)

/-- The name of a segment: a request's initiator, tag and place, or a flush's surface and line (R66). -/
def WorkRef.bytes : WorkRef → List Byte
  | .request r => [0] ++ le 1 r.initiator.val ++ le 1 r.tag.val ++ le 1 r.index
  | .flush s n => [1] ++ le 1 s ++ le 2 n

/-- The pass of a drive: the failed verifies so far, which say which pass it is; whether the write pass (00h) or its verify
(01h) is in hand; and the side (R69; log entry 20). -/
def passBytes (x : Drive) : List Byte :=
  match x.pass with
  | some p => le 1 p.failed ++ yes (x.state = .verify) ++ le 1 p.side.code
  | none => absent 3

/-- The current segment of a drive and its current count; both are absent when it holds none (R66, R69, R182). -/
def workBytes (x : Drive) : List Byte :=
  match x.work with
  | some w => w.ref.bytes ++ le 2 x.left
  | none => absent 6

/-- A drive (R66, R69, R166). -/
def driveBytes (now : Nat) (j : Jukebox) (d : Fin 4) : List Byte :=
  let x := j.drive d
  le 1 x.state.code ++ opt 1 x.platter ++ opt 1 x.mounted ++
    workBytes x ++ passBytes x ++ opt 1 (j.orders.findIdx? fun o => o.drive = d) ++ timeLeft now x.dwell ++
    (match x.preempt with
      | some r => (WorkRef.request r).bytes
      | none => absent 4) ++
    (match x.parked with
      | some c => c.ref.bytes ++ le 1 c.surface ++ le 3 c.next ++ le 2 c.remaining
      | none => absent 10) ++
    ms x.lastUse ++ yes x.offlineFlag ++ opt 1 (x.reason.map DriveReason.code) ++ yes x.ejecting ++
    opt 1 (x.lastEject.map fun o => if o = .taken then 0 else 1)

/-- A position of the picker (R85; log entry 20). -/
def Position.code : Position → Nat
  | .slot n => n
  | .drive d => 96 + d.val

/-- The picker's current activity in the order of R85's list: an order with its step, an inventory check with its place, or
a recovery step; absent when there is none, and while inventory has not begun (R85, R182; log entry 20). -/
def activityBytes (j : Jukebox) : List Byte :=
  if j.picker.recovering then le 1 2 ++ absent 1
  else match j.picker.inventory, j.currentOrder with
    | some .start, _ => absent 2
    | some t, _ => le 1 1 ++ le 1 t.inHand
    | none, some o => le 1 0 ++ le 1 o.step
    | none, none => absent 2

/-- The picker record (R85). -/
def pickerBytes (autoResume : Bool) (j : Jukebox) : List Byte :=
  let p := j.picker
  le 1 p.state.code ++ opt 1 (p.position.map Position.code) ++ opt 1 p.gripped ++ activityBytes j ++
    le 1 p.door.code ++
    (match p.halt with
      | some h => le 1 (backCode h.back) ++ activityBytes j ++ yes h.awaiting
      | none => absent 4) ++
    opt 1 (p.reason.map PickerReason.code) ++ yes autoResume

/-- An exchange order (R76). -/
def orderBytes (o : Order) : List Byte :=
  le 1 o.drive.val ++ le 1 o.kind.code ++ opt 1 o.outgoing ++ opt 1 o.incoming ++
    opt 1 (o.wanted.map sideUpCode) ++ yes o.express ++ le 1 o.step ++ le 1 o.state.code

/-- The exchange order queue in its order: four places of 8 bytes (R77, R89; log entry 20). -/
def orderQueueBytes (j : Jukebox) : List Byte :=
  ((j.orders.map orderBytes) ++ List.replicate (4 - j.orders.length) (absent 8)).flatten

/-- The code of a platter's location (R67; log entry 20). -/
def Location.code : Location → Nat
  | .slot => 0
  | .drive d => 1 + d.val
  | .picker => 5

/-- A platter record (R67). -/
def platterBytes (p : Platter) : List Byte :=
  yes p.present ++ opt 1 (p.location.map Location.code) ++ le 1 (sideUpCode p.orientation) ++ yes p.held ++ opt 1 p.misfile

/-- Block 9 (R182). -/
def mechanismBlock (s : State) : List Byte :=
  let j := s.jb
  settingsBytes s.settings j.lastTier ++
    [Level.express, .counter, .staff, .write, .flush].flatMap (levelBytes s.now j) ++
    allDrives.flatMap (driveBytes s.now j) ++ pickerBytes s.settings.autoResume j ++ orderQueueBytes j ++
    j.platters.toList.flatMap platterBytes

/-! ## Blocks 10 to 13: the request table (R44, R182) -/

/-- A segment (R44).  Its sides done read 00h for none and 01h for the primary: the model's choice (log entry 20). -/
def segmentBytes (g : Segment) : List Byte :=
  le 1 g.surface ++ le 3 g.first ++ le 2 g.count ++ le 1 g.htype.code ++ le 1 g.readRoute.code ++
    le 1 g.writeRoute.code ++ le 1 g.kind.code ++ le 1 g.state.code ++ le 2 g.current ++ le 1 g.attempts ++
    le 1 g.status.code ++ le 1 g.readSide.code ++ le 2 g.served ++ le 2 g.billable ++ le 2 g.staged ++
    le 1 g.failedVerify ++ yes g.primaryDone

/-- A request with its segments, in 128 bytes (R44, R182). -/
def requestBytes (now : Nat) (q : Request) : List Byte :=
  padTo 128 (le 1 q.initiator.val ++ le 1 q.tag.val ++ le 1 q.kind.code ++ le 1 q.window ++ le 1 q.feeClass ++
    le 1 q.level.code ++ [q.generation] ++ le 1 q.state.code ++ timeLeft now q.deadline ++ le 2 q.delivered ++
    le 2 q.billable ++ le 2 q.staged ++ le 1 q.status.code ++
    ((q.segments.map segmentBytes) ++ List.replicate (2 - q.segments.length) (absent 24)).flatten)

/-- Block 10 + k (R44). -/
def tableBlock (k : Nat) (s : State) : List Byte := ((s.jb.table.drop (8 * k)).take 8).flatMap (requestBytes s.now)

/-! ## Blocks 16 + s: surface records (R128, R180) -/

/-- The valid pair in which a surface stands, and its role (R128). -/
def VolumeMap.pairOf (m : VolumeMap) (surface : Nat) : Option (Nat × Nat) :=
  m.pairs.toList.zipIdx.findSome? fun p =>
    if p.1.valid && p.1.primary = surface then some (p.2, 1)
    else if p.1.valid && p.1.mirror = surface then some (p.2, 2)
    else none

/-- A line entry (R180). -/
def lineBytes (now : Nat) (l : GatherLine) : List Byte :=
  le 2 l.index ++ le 1 l.state.code ++ le 1 (l.lo - l.index * Config.lineBlocks) ++
    le 1 (l.hi - 1 - l.index * Config.lineBlocks) ++ yes l.due.isSome ++ le 1 l.attempts ++ [0] ++
    ms (now - l.firstStaged) ++ ms ((l.due.map fun t => now - t).getD 0)

/-- The record of a surface with its lines in use (R180).  Without a quarantine record the failing side and the attempts used
read 00h: the model's choice (log entry 20). -/
def surfaceBlock (n : Nat) (s : State) : List Byte :=
  let r := s.jb.surface n
  let q := r.quarantine.getD ⟨0, .primary, 0⟩
  let ls := s.jb.linesOf n
  le 3 r.sealMark ++ le 3 r.appendPoint ++ le 1 r.condition.code ++ yes r.quarantine.isSome ++ le 2 q.line ++
    le 1 q.side.code ++ le 1 q.attempts ++ opt 1 ((s.map.pairOf n).map fun p => p.1) ++
    le 1 (((s.map.pairOf n).map fun p => p.2).getD 0) ++
    le 1 (((s.jb.flush n).map fun f => f.state.code).getD 0) ++ le 1 ls.length ++ ls.flatMap (lineBytes s.now)

/-! ## Serving a read (R168) -/

/-- The contents of a control-window block as an initiator reads it (section 9.1, R168, R182). -/
def readback (i : Fin 7) (block : Nat) (s : State) : List Byte :=
  padTo 1024
    (match block with
      | 0 => responseBlock i s
      | 1 => statusBlock s
      | 2 => windowBlock s.map
      | 3 => mapBlock s.map
      | 4 => mirrorBlock s.map
      | 5 => tariffBlock s.fee
      | 6 => s.fee.pending.bytes
      | 7 => tallyBlock s.fee
      | 8 => closeBlock s.fee.close
      | 9 => mechanismBlock s
      | n => if n < 14 then tableBlock (n - 10) s else surfaceBlock (n - 16) s)

/-- A READ of the control window (R167, R168). -/
def controlRead (src : Src) (block length : Nat) (s : State) : State :=
  match accessRefusal .read block length with
  | some st => { s with jb := s.jb.send (.status src.initiator src.tag st) }
  | none =>
    { s with
      jb := (s.jb.send (.readback src.initiator src.tag block (readback src.initiator block s))).send
        (.status src.initiator src.tag .good) }

/-- A WRITE of the control window: refused under R167, or a command record (R169). -/
def controlWrite (src : Src) (block length : Nat) (data : List Block) (s : State) : State :=
  match accessRefusal .write block length with
  | some st => { s with jb := s.jb.send (.status src.initiator src.tag st) }
  | none =>
    control src (decodeRecord (blockAt data 0)) s

end Sys2Proof.Machine
end

