-- ==== Sys2Proof/Machine/Startup.lean ====
section
/-! DEFINITION. Power and the battery store: power-on, power loss and the battery-good input (R126, R127, R184 to R192). -/

namespace Sys2Proof.Machine

/-- A drive that reports the surface it has spun up, or no platter (R69). -/
def Drive.atPowerOn (surface : Option Nat) : Drive :=
  match surface with
  | none => Drive.bare
  | some n => { Drive.bare with state := .ready, platter := some (platterOf n), mounted := some n, reported := some n }

/-- A line whose flush was lost returns to FILLING and is due (R115, R186). -/
def GatherLine.reverted (now : Nat) (l : GatherLine) : GatherLine :=
  if l.state = .flushing || l.state = .verifying then { l.makeDue now with state := .filling } else l

/-- A platter record before inventory: only its orientation is kept (R67, R185). -/
def Platter.atPowerOn (p : Platter) : Platter := { Platter.cold with orientation := p.orientation }

/-- The state every item of the battery store takes at a cold start (R184, R187); the part's other state follows at the
power-on itself. -/
def coldStore (s : State) : State :=
  { s with
    now := 0, map := VolumeMap.cold, settings := Settings.cold, control := ControlUnit.cold, fee := FeeUnit.cold
    jb := { s.jb with
      platters := Vector.replicate 96 Platter.cold, surfaces := Vector.replicate 192 SurfaceRec.cold, lines := [] } }

/-- What the store keeps of the jukebox, with every other piece at its power-on value (R26, R65, R67, R69, R77, R85, R95). -/
def keptJukebox (j : Jukebox) : Jukebox :=
  { Jukebox.cold with
    platters := j.platters.map Platter.atPowerOn, surfaces := j.surfaces, lines := j.lines }

/-- The picker at power-on: in INVENTORY, or HALTED with a halt record returning to it when the door is open (R85). -/
def Picker.atPowerOn (doorOpen : Bool) (gripped : Option Nat) : Picker :=
  { Picker.cold with
    state := if doorOpen then .halted else .inventory
    gripped := gripped
    door := if doorOpen then .opened else .closed
    halt := if doorOpen then some ⟨.inventory, false⟩ else none
    inventory := some .start
    stepLimit := none }

/-- The jukebox at power-on: inventory begins unless the door is open, and the filing engine tests every surface (R185,
R186, R189). -/
def startJukebox (e : Env) (doorOpen : Bool) (gripped : Option Nat) (d0 d1 d2 d3 : Option Nat) (j : Jukebox) :
    Jukebox :=
  let j := keptJukebox j
  let j := { j with
    drives := #v[Drive.atPowerOn d0, Drive.atPowerOn d1, Drive.atPowerOn d2, Drive.atPowerOn d3]
    picker := Picker.atPowerOn doorOpen gripped
    lines := j.lines.map (GatherLine.reverted e.now) }
  testAllFlushes e (if doorOpen then j else beginInventory e j)

/-- The control unit at power-on (R170, R173, R174). -/
def ControlUnit.atPowerOn (c : ControlUnit) : ControlUnit :=
  { c with lock := 0, responses := Vector.replicate 7 Response.powerOn }

/-- Power is applied (R185 to R187). -/
def applyPower (batteryGood doorOpen : Bool) (gripped : Option Nat) (d0 d1 d2 d3 : Option Nat) (s : State) : State :=
  let s := if batteryGood then s else coldStore s
  let s := { s with
    powered := true, batteryLow := !batteryGood, control := s.control.atPowerOn, fee := s.fee.emptied }
  s.onJb fun e => startJukebox e doorOpen gripped d0 d1 d2 d3

/-- Power is lost: what the store does not keep is gone (R184; log entry 6). -/
def losePower (s : State) : State :=
  { s with
    powered := false, batteryLow := true, control := s.control.atPowerOn
    fee := { s.fee with activeCount := 0, previousCount := 0 }
    jb := keptJukebox s.jb }

/-- The battery-good input falls (R126, R192). -/
def batteryFalls (s : State) : State :=
  if s.batteryLow then s else { s with batteryLow := true }.onJb enterLow

/-- The battery-good input rises (R127, R192). -/
def batteryRises (s : State) : State :=
  if s.batteryLow then { s with batteryLow := false, jb := leaveLow s.jb } else s

end Sys2Proof.Machine
end

