-- ==== Sys2Proof/Machine/FrontBus.lean ====
section
/-! DEFINITION. The meanings of the front bus commands and of the request deadlines. -/

namespace Sys2Proof.Machine

/-- A command taken by the part: its bus traffic begins anew, and a part without power takes no command (R184; log
entries 4 and 6). -/
def State.take (s : State) (f : State → State) : Host.Outcome State Fault Refusal :=
  .next (if s.powered then f { s with jb := { s.jb with bus := [] } } else s)

/-- An event of the jukebox alone. -/
def State.event (s : State) (f : Env → Jukebox → Jukebox) : Host.Outcome State Fault Refusal :=
  s.take fun s => s.onJb f

/-- A READ or WRITE of windows 0..6 is refused with a status, or accepted (R23, R24). -/
def accept (src : Src) (k : Kind) (lba length : Nat) (data : List Block) (s : State) : State :=
  match refusal s.env s.jb src k lba length with
  | some st => { s with jb := s.jb.send (.status src.initiator src.tag st) }
  | none =>
    { s with
      fee := s.fee.enter
      jb := takeIn s.env (newRequest s.env s.fee.generation s.jb src k lba length data) s.jb }

/-- READ (R24); window 7 goes to the control unit (R1, R167). -/
def execRead (src : Src) (lba length : Nat) (s : State) : Host.Outcome State Fault Refusal :=
  s.take fun s =>
    if windowOf lba = 7 then controlRead src (archiveBlock lba) length s else accept src .read lba length [] s

/-- WRITE (R24); window 7 goes to the control unit (R1, R167, R169). -/
def execWrite (src : Src) (lba length : Nat) (data : List Block) (s : State) : Host.Outcome State Fault Refusal :=
  s.take fun s =>
    if windowOf lba = 7 then controlWrite src (archiveBlock lba) length data s else accept src .write lba length data s

/-- CONTROL_WINDOW_READ (R167, R168). -/
def execControlWindowRead (src : Src) (block length : Nat) (s : State) : Host.Outcome State Fault Refusal :=
  s.take (controlRead src block length)

/-- CONTROL_WRITE_OTHER_BLOCK (R167); a WRITE of block 0 is no such command and changes nothing (log entry 5). -/
def execControlWriteOtherBlock (src : Src) (block length : Nat) (s : State) : Host.Outcome State Fault Refusal :=
  s.take fun s =>
    match accessRefusal .write block length with
    | some st => { s with jb := s.jb.send (.status src.initiator src.tag st) }
    | none => s

/-- FRONT_BUS_RESET (R42, R43, R141). -/
def execFrontBusReset (s : State) : Host.Outcome State Fault Refusal :=
  s.take fun s => { s with fee := s.fee.emptied, jb := frontReset s.env s.jb }

/-- REQUEST_DEADLINE_EXPIRY (R39 to R41). -/
def execRequestDeadlineExpiry (i : Fin 7) (t : Fin 8) (s : State) : Host.Outcome State Fault Refusal :=
  s.event fun e j => requestDeadline e i t j

/-- STAGING_WAIT_LIMIT_EXPIRY (R41). -/
def execStagingWaitLimitExpiry (i : Fin 7) (t : Fin 8) (s : State) : Host.Outcome State Fault Refusal :=
  s.event fun e j => stagingLimit e i t j

/-- STATUS_SEND (R38, R129, R138, R140). -/
def execStatusSend (i : Fin 7) (t : Fin 8) (s : State) : Host.Outcome State Fault Refusal :=
  s.take fun s =>
    match s.jb.request i t with
    | some q => if q.sendable then { s with fee := (s.fee.bill q).leave q.generation, jb := sendStatus q s.jb } else s
    | none => s

end Sys2Proof.Machine
end

