-- ==== Sys2Proof/Machine/Commands.lean ====
section
/-! DEFINITION. The meanings of the control-window commands. -/

namespace Sys2Proof.Machine

/-- UNKNOWN_COMMAND (R171 check 1). -/
def execUnknownCommand (src : Src) (code : Byte) (s : State) : Host.Outcome State Fault Refusal :=
  s.take (control src (.unknown code))

/-- SET_WINDOW (R5). -/
def execSetWindow (src : Src) (window enabled feeClass express writes : Byte) (s : State) :
    Host.Outcome State Fault Refusal :=
  s.take (control src (.setWindow window enabled feeClass express writes))

/-- SET_FIXED_RANGE (R9, R12, R17, R18). -/
def execSetFixedRange (src : Src) (index htype readRoute writeRoute : Byte) (s : State) :
    Host.Outcome State Fault Refusal :=
  s.take (control src (.setFixedRange index htype readRoute writeRoute))

/-- SET_VARIABLE_RANGE (R10, R12, R17, R18). -/
def execSetVariableRange (src : Src) (index valid first last htype readRoute writeRoute : Byte) (s : State) :
    Host.Outcome State Fault Refusal :=
  s.take (control src (.setVariableRange index valid first last htype readRoute writeRoute))

/-- SET_MAP_CONTROL (R11, R17, R18). -/
def execSetMapControl (src : Src) (mapEnable fixedEnable defaultType routing : Byte) (s : State) :
    Host.Outcome State Fault Refusal :=
  s.take (control src (.setMapControl mapEnable fixedEnable defaultType routing))

/-- SET_MIRROR_PAIR (R15). -/
def execSetMirrorPair (src : Src) (index valid primary mirror : Byte) (s : State) : Host.Outcome State Fault Refusal :=
  s.take (control src (.setMirrorPair index valid primary mirror))

/-- SET_TARIFF (R142). -/
def execSetTariff (src : Src) (cls : Byte) (f : BitVec 16) (n g : Byte) (k : BitVec 16) (sur : Byte) (c : BitVec 24)
    (s : State) : Host.Outcome State Fault Refusal :=
  s.take (control src (.setTariff cls f n g k sur c))

/-- SET_PAGE_SIZE (R143). -/
def execSetPageSize (src : Src) (p : Byte) (s : State) : Host.Outcome State Fault Refusal :=
  s.take (control src (.setPageSize p))

/-- APPLY_TARIFF (R144). -/
def execApplyTariff (src : Src) (s : State) : Host.Outcome State Fault Refusal :=
  s.take (control src .applyTariff)

/-- CLOSE_DAY (R146, R147). -/
def execCloseDay (src : Src) (apply : Byte) (s : State) : Host.Outcome State Fault Refusal :=
  s.take (control src (.closeDay apply))

/-- ACK_CLOSE (R148). -/
def execAckClose (src : Src) (day : BitVec 16) (s : State) : Host.Outcome State Fault Refusal :=
  s.take (control src (.ackClose day))

/-- SET_SERVICE (R175). -/
def execSetService (src : Src) (mask dispatch tier back preempt autoResume : Byte) (s : State) :
    Host.Outcome State Fault Refusal :=
  s.take (control src (.setService mask dispatch tier back preempt autoResume))

/-- SET_TIMING (R176). -/
def execSetTiming (src : Src) (dwell : BitVec 16) (lowWater : Byte) (lineAge staging request : BitVec 16) (s : State) :
    Host.Outcome State Fault Refusal :=
  s.take (control src (.setTiming dwell lowWater lineAge staging request))

/-- FLUSH_ALL (R115). -/
def execFlushAll (src : Src) (s : State) : Host.Outcome State Fault Refusal :=
  s.take (control src .flushAll)

/-- RESUME_PICKER (R88). -/
def execResumePicker (src : Src) (s : State) : Host.Outcome State Fault Refusal :=
  s.take (control src .resumePicker)

/-- CLEAR_DRIVE (R157). -/
def execClearDrive (src : Src) (drive : Byte) (s : State) : Host.Outcome State Fault Refusal :=
  s.take (control src (.clearDrive drive))

/-- CLEAR_PICKER (R159). -/
def execClearPicker (src : Src) (sensor : Sensor) (s : State) : Host.Outcome State Fault Refusal :=
  s.take (control src (.clearPicker sensor))

/-- TAKE_OFFLINE (R164). -/
def execTakeOffline (src : Src) (drive : Byte) (s : State) : Host.Outcome State Fault Refusal :=
  s.take (control src (.takeOffline drive 0))

/-- RETURN_DRIVE (R74). -/
def execReturnDrive (src : Src) (drive : Byte) (s : State) : Host.Outcome State Fault Refusal :=
  s.take (control src (.takeOffline drive 1))

/-- RELEASE_QUARANTINE_RETRY (R123). -/
def execReleaseQuarantineRetry (src : Src) (surface : Byte) (s : State) : Host.Outcome State Fault Refusal :=
  s.take (control src (.releaseQuarantine surface 0))

/-- RELEASE_QUARANTINE_DISCARD (R124). -/
def execReleaseQuarantineDiscard (src : Src) (surface : Byte) (s : State) : Host.Outcome State Fault Refusal :=
  s.take (control src (.releaseQuarantine surface 1))

/-- RESTORE_SEAL (R188). -/
def execRestoreSeal (src : Src) (surface : Byte) (mark : BitVec 24) (s : State) : Host.Outcome State Fault Refusal :=
  s.take (control src (.restoreSeal surface mark))

/-- SET_CONTROL_SET (R173). -/
def execSetControlSet (src : Src) (members : Byte) (s : State) : Host.Outcome State Fault Refusal :=
  s.take (control src (.setControlSet members))

/-- RAISE_LOCK (R174). -/
def execRaiseLock (src : Src) (level : Byte) (s : State) : Host.Outcome State Fault Refusal :=
  s.take (control src (.raiseLock level))

end Sys2Proof.Machine
end

