-- ==== Sys2Proof/Machine/Events.lean ====
section
/-! DEFINITION. The meanings of the events of power, inputs, lines, drives and picker. -/

namespace Sys2Proof.Machine

/-! ## Power, battery and door -/

/-- POWER_ON (R185 to R187); a part that has power loses it first (log entry 6). -/
def execPowerOn (batteryGood doorOpen : Bool) (gripped d0 d1 d2 d3 : Option Nat) (s : State) :
    Host.Outcome State Fault Refusal :=
  .next (applyPower batteryGood doorOpen gripped d0 d1 d2 d3 (losePower s))

/-- POWER_LOSS (R184). -/
def execPowerLoss (s : State) : Host.Outcome State Fault Refusal := s.take losePower

/-- BATTERY_GOOD_FALL (R126, R192). -/
def execBatteryGoodFall (s : State) : Host.Outcome State Fault Refusal := s.take batteryFalls

/-- BATTERY_GOOD_RISE (R127, R192). -/
def execBatteryGoodRise (s : State) : Host.Outcome State Fault Refusal := s.take batteryRises

/-- DOOR_OPENING (R86). -/
def execDoorOpening (s : State) : Host.Outcome State Fault Refusal := s.event fun _ => doorOpens

/-- DOOR_CLOSING (R87). -/
def execDoorClosing (s : State) : Host.Outcome State Fault Refusal := s.event doorCloses

/-- SETTLE_END (R87, R88). -/
def execSettleEnd (s : State) : Host.Outcome State Fault Refusal := s.event settleEnds

/-! ## Lines and drives -/

/-- LINE_AGE_LIMIT_EXPIRY (R115). -/
def execLineAgeLimitExpiry (surface line : Nat) (s : State) : Host.Outcome State Fault Refusal :=
  s.event fun e => ageLimit e surface line

/-- The dwell of drive `d` ends with a full pull (R58). -/
def dwellEnds (e : Env) (d : Fin 4) (j : Jukebox) : Jukebox :=
  if (j.drive d).dwell.isSome then pull e d (j.onDrive d fun x => { x with dwell := none }) else j

/-- DWELL_DEADLINE_EXPIRY (R58). -/
def execDwellDeadlineExpiry (d : Fin 4) (s : State) : Host.Outcome State Fault Refusal :=
  s.event fun e => dwellEnds e d

/-- SPIN_UP_COMPLETE (R70). -/
def execSpinUpComplete (d : Fin 4) (s : State) : Host.Outcome State Fault Refusal := s.event fun e => spinUp e d

/-- Drive `d` has not spun up in time (R70). -/
def spinUpOverrun (e : Env) (d : Fin 4) (j : Jukebox) : Jukebox :=
  if (j.drive d).state = .loading then driveFault e d .spinUpLimit j else j

/-- SPIN_UP_LIMIT (R70, R75). -/
def execSpinUpLimit (d : Fin 4) (s : State) : Host.Outcome State Fault Refusal := s.event fun e => spinUpOverrun e d

/-- SPIN_DOWN_COMPLETE (R73, R78). -/
def execSpinDownComplete (d : Fin 4) (ejected : Bool) (s : State) : Host.Outcome State Fault Refusal :=
  s.event fun e => spinDown e d ejected

/-- Drive `d` has not spun down in time (R73). -/
def spinDownOverrun (e : Env) (d : Fin 4) (j : Jukebox) : Jukebox :=
  if (j.drive d).state = .unloading && !(j.drive d).ejected then driveFault e d .spinDownLimit j else j

/-- SPIN_DOWN_LIMIT (R73, R75). -/
def execSpinDownLimit (d : Fin 4) (s : State) : Host.Outcome State Fault Refusal := s.event fun e => spinDownOverrun e d

/-- Drive `d` reports a hardware failure; a drive in FAULT keeps its first reason and an OFFLINE drive does not fault
(R75, R164). -/
def hardwareReport (e : Env) (d : Fin 4) (j : Jukebox) : Jukebox :=
  if (j.drive d).state = .fault || (j.drive d).state = .offline then j else driveFault e d .hardware j

/-- DRIVE_HARDWARE_REPORT (R75). -/
def execDriveHardwareReport (d : Fin 4) (s : State) : Host.Outcome State Fault Refusal :=
  s.event fun e => hardwareReport e d

/-- The eject attempt of drive `d` ends (R155, R157). -/
def ejectEnds (e : Env) (d : Fin 4) (taken : Bool) (j : Jukebox) : Jukebox :=
  if j.ejecting d then (if taken then ejectTaken e d j else ejectNotTaken e d j) else j

/-- EJECT_ATTEMPT_REPORT (R155). -/
def execEjectAttemptReport (d : Fin 4) (taken : Bool) (s : State) : Host.Outcome State Fault Refusal :=
  s.event fun e => ejectEnds e d taken

/-- EJECT_ATTEMPT_LIMIT (R155). -/
def execEjectAttemptLimit (d : Fin 4) (s : State) : Host.Outcome State Fault Refusal :=
  s.event fun e => ejectEnds e d false

/-- BURST_END (R71). -/
def execBurstEnd (d : Fin 4) (media : List (Nat × MediaRead)) (s : State) : Host.Outcome State Fault Refusal :=
  s.event fun e => burstEnd e d media

/-- VERIFY_END (R72). -/
def execVerifyEnd (d : Fin 4) (passed : Bool) (s : State) : Host.Outcome State Fault Refusal :=
  s.event fun e => verifyEnd e d passed

/-! ## The picker -/

/-- PICKER_ARRIVES_AT_DRIVE (R78). -/
def execPickerArrivesAtDrive (s : State) : Host.Outcome State Fault Refusal := s.event arrives

/-- PICKER_GRIP_AT_DRIVE (R79). -/
def execPickerGripAtDrive (s : State) : Host.Outcome State Fault Refusal := s.event gripsAtDrive

/-- PLATTER_RELEASE_IN_SLOT (R79). -/
def execPlatterReleaseInSlot (s : State) : Host.Outcome State Fault Refusal := s.event releasesInSlot

/-- INCOMING_PLATTER_GRIP (R80). -/
def execIncomingPlatterGrip (s : State) : Host.Outcome State Fault Refusal := s.event gripsIncoming

/-- PICKER_GRIP_FAILURE (R82, R158). -/
def execPickerGripFailure (s : State) : Host.Outcome State Fault Refusal := s.event gripFails

/-- PICKER_FLIP_END (R80). -/
def execPickerFlipEnd (s : State) : Host.Outcome State Fault Refusal := s.event flipEnds

/-- PLATTER_SEATED (R81). -/
def execPlatterSeated (s : State) : Host.Outcome State Fault Refusal := s.event seated

/-- PICKER_STEP_LIMIT (R82, R158). -/
def execPickerStepLimit (s : State) : Host.Outcome State Fault Refusal := s.event fun _ => stepOverrun

/-- PICKER_RECOVERY_RELEASE (R159, R160). -/
def execPickerRecoveryRelease (released : Bool) (s : State) : Host.Outcome State Fault Refusal :=
  s.event fun e => recoveryRelease e released

/-- INVENTORY_SLOT_CHECK (R189, R190). -/
def execInventorySlotCheck (found : Option Found) (s : State) : Host.Outcome State Fault Refusal :=
  s.event fun e => slotCheck e found

end Sys2Proof.Machine
end

