-- ==== Sys2Proof/Machine/Dispatch.lean ====
section
/-! DEFINITION. The dispatch of commands: one arm per constructor of `Instr`. -/

namespace Sys2Proof.Machine

/-- The effect of a command on everything but the queue. -/
def exec (i : Instr) (s : State) : Host.Outcome State Fault Refusal :=
  match i with
  | .read src lba length => Sys2Proof.Machine.execRead src lba length s
  | .write src lba length data => Sys2Proof.Machine.execWrite src lba length data s
  | .controlWindowRead src block length => Sys2Proof.Machine.execControlWindowRead src block length s
  | .controlWriteOtherBlock src block length => Sys2Proof.Machine.execControlWriteOtherBlock src block length s
  | .unknownCommand src code => Sys2Proof.Machine.execUnknownCommand src code s
  | .setWindow src window enabled feeClass express writes => Sys2Proof.Machine.execSetWindow src window enabled feeClass express writes s
  | .setFixedRange src index htype readRoute writeRoute => Sys2Proof.Machine.execSetFixedRange src index htype readRoute writeRoute s
  | .setVariableRange src index valid first last htype readRoute writeRoute => Sys2Proof.Machine.execSetVariableRange src index valid first last htype readRoute writeRoute s
  | .setMapControl src mapEnable fixedEnable defaultType routing => Sys2Proof.Machine.execSetMapControl src mapEnable fixedEnable defaultType routing s
  | .setMirrorPair src index valid primary mirror => Sys2Proof.Machine.execSetMirrorPair src index valid primary mirror s
  | .setTariff src cls f n g k sur c => Sys2Proof.Machine.execSetTariff src cls f n g k sur c s
  | .setPageSize src p => Sys2Proof.Machine.execSetPageSize src p s
  | .applyTariff src => Sys2Proof.Machine.execApplyTariff src s
  | .closeDay src apply => Sys2Proof.Machine.execCloseDay src apply s
  | .ackClose src day => Sys2Proof.Machine.execAckClose src day s
  | .setService src mask dispatch tier back preempt autoResume => Sys2Proof.Machine.execSetService src mask dispatch tier back preempt autoResume s
  | .setTiming src dwell lowWater lineAge staging request => Sys2Proof.Machine.execSetTiming src dwell lowWater lineAge staging request s
  | .flushAll src => Sys2Proof.Machine.execFlushAll src s
  | .resumePicker src => Sys2Proof.Machine.execResumePicker src s
  | .clearDrive src drive => Sys2Proof.Machine.execClearDrive src drive s
  | .clearPicker src sensor => Sys2Proof.Machine.execClearPicker src sensor s
  | .takeOffline src drive => Sys2Proof.Machine.execTakeOffline src drive s
  | .returnDrive src drive => Sys2Proof.Machine.execReturnDrive src drive s
  | .releaseQuarantineRetry src surface => Sys2Proof.Machine.execReleaseQuarantineRetry src surface s
  | .releaseQuarantineDiscard src surface => Sys2Proof.Machine.execReleaseQuarantineDiscard src surface s
  | .restoreSeal src surface mark => Sys2Proof.Machine.execRestoreSeal src surface mark s
  | .setControlSet src members => Sys2Proof.Machine.execSetControlSet src members s
  | .raiseLock src level => Sys2Proof.Machine.execRaiseLock src level s
  | .frontBusReset => Sys2Proof.Machine.execFrontBusReset s
  | .powerOn batteryGood doorOpen gripped d0 d1 d2 d3 => Sys2Proof.Machine.execPowerOn batteryGood doorOpen gripped d0 d1 d2 d3 s
  | .batteryGoodFall => Sys2Proof.Machine.execBatteryGoodFall s
  | .batteryGoodRise => Sys2Proof.Machine.execBatteryGoodRise s
  | .doorOpening => Sys2Proof.Machine.execDoorOpening s
  | .doorClosing => Sys2Proof.Machine.execDoorClosing s
  | .settleEnd => Sys2Proof.Machine.execSettleEnd s
  | .requestDeadlineExpiry initiator tag => Sys2Proof.Machine.execRequestDeadlineExpiry initiator tag s
  | .stagingWaitLimitExpiry initiator tag => Sys2Proof.Machine.execStagingWaitLimitExpiry initiator tag s
  | .lineAgeLimitExpiry surface line => Sys2Proof.Machine.execLineAgeLimitExpiry surface line s
  | .dwellDeadlineExpiry drive => Sys2Proof.Machine.execDwellDeadlineExpiry drive s
  | .spinUpComplete drive => Sys2Proof.Machine.execSpinUpComplete drive s
  | .spinUpLimit drive => Sys2Proof.Machine.execSpinUpLimit drive s
  | .spinDownComplete drive ejected => Sys2Proof.Machine.execSpinDownComplete drive ejected s
  | .spinDownLimit drive => Sys2Proof.Machine.execSpinDownLimit drive s
  | .driveHardwareReport drive => Sys2Proof.Machine.execDriveHardwareReport drive s
  | .ejectAttemptReport drive taken => Sys2Proof.Machine.execEjectAttemptReport drive taken s
  | .ejectAttemptLimit drive => Sys2Proof.Machine.execEjectAttemptLimit drive s
  | .burstEnd drive media => Sys2Proof.Machine.execBurstEnd drive media s
  | .verifyEnd drive passed => Sys2Proof.Machine.execVerifyEnd drive passed s
  | .pickerArrivesAtDrive => Sys2Proof.Machine.execPickerArrivesAtDrive s
  | .pickerGripAtDrive => Sys2Proof.Machine.execPickerGripAtDrive s
  | .platterReleaseInSlot => Sys2Proof.Machine.execPlatterReleaseInSlot s
  | .incomingPlatterGrip => Sys2Proof.Machine.execIncomingPlatterGrip s
  | .pickerGripFailure => Sys2Proof.Machine.execPickerGripFailure s
  | .pickerFlipEnd => Sys2Proof.Machine.execPickerFlipEnd s
  | .platterSeated => Sys2Proof.Machine.execPlatterSeated s
  | .pickerStepLimit => Sys2Proof.Machine.execPickerStepLimit s
  | .pickerRecoveryRelease released => Sys2Proof.Machine.execPickerRecoveryRelease released s
  | .inventorySlotCheck found => Sys2Proof.Machine.execInventorySlotCheck found s
  | .statusSend initiator tag => Sys2Proof.Machine.execStatusSend initiator tag s
  | .powerLoss => Sys2Proof.Machine.execPowerLoss s

end Sys2Proof.Machine
end

