-- ==== Sys2Proof/WellFormed.lean ====
section
/-! DEFINITION. Well-formed commands: the ones the hosts, the mechanism and the inputs can send. -/

namespace Sys2Proof

/-- The codes of the command table (section 9.5, R171). -/
def knownCodes : List Byte :=
  [0x01, 0x02, 0x03, 0x04, 0x05, 0x10, 0x11, 0x12, 0x13, 0x14, 0x20, 0x21, 0x22, 0x23, 0x24, 0x25, 0x26,
    0x30, 0x31, 0x40, 0x41]

/-- A surface a drive can report at power-on. -/
def surfaceOk (s : Option Nat) : Bool := s.all (· < Config.surfaceCount)

/-- No platter is reported twice: R67 lets every platter be in one place only. -/
def reportsDistinct (g : Option Nat) (ds : List (Option Nat)) : Bool :=
  let ps := g.toList ++ ds.flatMap fun s => (s.map (· / 2)).toList
  decide ps.Nodup

/-- The check each command passes before it can be sent. -/
def Instr.wellFormed : Instr → Bool
  | .write _ _ length data => data.length = length
  | .controlWriteOtherBlock _ block _ => block != 0
  | .unknownCommand _ code => !knownCodes.contains code
  | .clearPicker _ (.platter p) => p < Config.platterCount
  | .powerOn _ _ gripped d0 d1 d2 d3 =>
    gripped.all (· < Config.platterCount) && [d0, d1, d2, d3].all surfaceOk &&
      reportsDistinct gripped [d0, d1, d2, d3]
  | .lineAgeLimitExpiry surface line => 2 ≤ surface && surface < Config.surfaceCount && line < 16384
  | .burstEnd _ media => media.all fun m => m.1 < Config.surfaceBlocks
  | .inventorySlotCheck found => found.all fun f => f.label < Config.platterCount
  | _ => true

end Sys2Proof
end

