-- ==== Sys2Proof/Safety.lean ====
section
/-! DEFINITION. What a good state and a good run are, in the terms the statements use: buffer memory in its one form, stored
values in their ranges, the request table and the fee unit's counts, the control rows of the command table and the answer a
control-window command gets. -/

namespace Sys2Proof.Machine

/-! ## Buffer memory (R95, R107) -/

/-- The place of a gather line: its surface and its line index (R107). -/
def GatherLine.place (l : GatherLine) : Nat × Nat := (l.surface, l.index)

/-- The place of a retain line: its surface and its line index (R95). -/
def RetainLine.place (l : RetainLine) : Nat × Nat := (l.surface, l.index)

/-- One place comes before another: by surface, then by line index. -/
def before (a b : Nat × Nat) : Prop := a.1 < b.1 ∨ (a.1 = b.1 ∧ a.2 < b.2)

/-- Buffer memory is in its one form: the gather lines in use stand strictly in order of surface and line index, at most 32
of them (R107), and no two retain lines in use have the same place, at most 96 of them (R95). -/
structure Jukebox.BufferWf (j : Jukebox) : Prop where
  ordered : (j.lines.map GatherLine.place).Pairwise before
  lines : j.lines.length ≤ Config.gatherLines
  distinct : (j.retain.map RetainLine.place).Nodup
  retained : j.retain.length ≤ Config.retainLines

/-! ## The request table and the fee unit's counts (R25 to R27, R138) -/

/-- No two requests of the table have the same initiator and tag, there are at most 32, and at most 8 of any initiator (R25,
R26). -/
structure Jukebox.TableWf (j : Jukebox) : Prop where
  tags : (j.table.map fun q => (q.initiator, q.tag)).Nodup
  size : j.table.length ≤ Config.tableEntries
  share : ∀ i, j.requestsOf i ≤ Config.initiatorEntries

/-- The requests of the table that carry a generation (R138). -/
def Jukebox.carrying (j : Jukebox) (gen : BitVec 8) : Nat := j.table.countP fun q => q.generation = gen

/-- Every request of the table carries the active or the previous generation, and the fee unit's two counts are the counts
of them (R27, R138). -/
structure State.FeeCountsAgree (s : State) : Prop where
  carried : ∀ q ∈ s.jb.table, q.generation = s.fee.generation ∨ q.generation = s.fee.generation - 1
  active : s.fee.activeCount = s.jb.carrying s.fee.generation
  previous : s.fee.previousCount = s.jb.carrying (s.fee.generation - 1)

/-! ## Stored values in their ranges -/

/-- The settings hold only values they can store (R46, R114, R176). -/
structure Settings.InRange (t : Settings) : Prop where
  tier : t.tierCode ≤ 2
  back : t.backCode ≤ 5
  dwell : t.dwell ≤ 10000
  lowWater : t.lowWater ≤ 31
  lineAge : 1 ≤ t.lineAge ∧ t.lineAge ≤ 600
  stagingWait : 1 ≤ t.stagingWait ∧ t.stagingWait ≤ 300
  requestLimit : t.requestLimit ≤ 3600

/-- A class entry of a tariff holds only values of its ranges (R131). -/
structure ClassEntry.InRange (c : ClassEntry) : Prop where
  f : c.f ≤ 65535
  n : c.n ≤ 255
  g : 1 ≤ c.g ∧ c.g ≤ 16
  k : c.k ≤ 65535
  s : c.s ≤ 200
  c : c.c ≤ 16777215

/-- A tariff holds only values of its ranges (R131). -/
structure Tariff.InRange (t : Tariff) : Prop where
  page : 1 ≤ t.page ∧ t.page ≤ 64
  classes : ∀ c ∈ t.classes.toList, c.InRange

/-- A tally record holds only 32-bit values (R135). -/
def Tally.InRange (t : Tally) : Prop :=
  t.amount ≤ Config.maxCount ∧ t.pages ≤ Config.maxCount ∧ t.requests ≤ Config.maxCount

/-- The side counts of an initiator hold only 32-bit values (R136). -/
def SideCounts.InRange (x : SideCounts) : Prop := x.failed ≤ Config.maxCount ∧ x.staged ≤ Config.maxCount

/-- The close record holds only values of its ranges: the tallies and side counts of the day it captured (R135, R136, R145). -/
structure CloseRecord.InRange (c : CloseRecord) : Prop where
  tallies : ∀ i : Fin 7, ∀ t ∈ c.tallies[i].toList, t.InRange
  sides : ∀ i : Fin 7, c.sides[i].InRange

/-- The fee unit holds only values of its ranges (R131, R135, R136, R145). -/
structure FeeUnit.InRange (f : FeeUnit) : Prop where
  active : f.active.InRange
  previous : f.previous.InRange
  pending : f.pending.InRange
  tallies : ∀ i : Fin 7, ∀ t ∈ f.tallies[i].toList, t.InRange
  sides : ∀ i : Fin 7, f.sides[i].InRange
  close : f.close.InRange

/-- A valid variable range covers surfaces of the jukebox, and none of type GATHER covers the index platter (R10). -/
def VarRange.InRange (r : VarRange) : Prop :=
  r.valid = true → r.first ≤ r.last ∧ r.last ≤ 191 ∧ (r.htype = .gather → 2 ≤ r.first)

/-- The two surfaces of a valid pair are surfaces of the jukebox on two platters (R15 checks 1 and 2). -/
def MirrorPair.InRange (p : MirrorPair) : Prop :=
  p.valid = true → p.primary ≤ 191 ∧ p.mirror ≤ 191 ∧ platterOf p.primary ≠ platterOf p.mirror

/-- The volume map holds only values of its ranges (R5, R9, R10, R15). -/
structure VolumeMap.InRange (m : VolumeMap) : Prop where
  windows : ∀ w ∈ m.windows.toList, w.feeClass ≤ 7
  fixed : ∀ r ∈ m.fixed.toList, r.htype ≠ .gather
  vars : ∀ r ∈ m.vars.toList, r.InRange
  pairs : ∀ p ∈ m.pairs.toList, p.InRange

/-- Every stored value is in its range: the map, the settings, the fee unit, the control set, which has a member (R173), and
the lock level (R174). -/
structure State.InRange (s : State) : Prop where
  map : s.map.InRange
  settings : s.settings.InRange
  fee : s.fee.InRange
  members : s.control.members ≠ 0
  lock : s.control.lock ≤ 3

/-! ## Staged blocks and attempts (R105, R107, R108, R113, R116 to R120, R151) -/

/-- The attempts and the failed verifies counted for a request segment are below the limits that end it, and its blocks are
blocks of one surface of the jukebox (R2, R28, R125, R151). -/
structure Segment.InRange (g : Segment) : Prop where
  surface : g.surface ≤ 191
  count : 1 ≤ g.count
  blocks : g.first + g.count ≤ 262144
  attempts : g.attempts ≤ 2
  failedVerify : g.failedVerify ≤ 2

/-- A flush segment stands for the lowest line of a KNOWN surface that is not quarantined: until its first dispatch the line
is FILLING; from then on it is frozen, and its range is the line's staged run (R116 to R118). -/
def Jukebox.flushFits (j : Jukebox) (f : Flush) : Prop :=
  (j.surface f.surface).condition = .known ∧ (j.surface f.surface).quarantine = none ∧
    ∃ l, j.line f.surface f.line = some l ∧ l.lo = (j.surface f.surface).sealMark ∧
      ((f.range = none ∧ f.state = .queued ∧ f.primaryDone = false ∧ l.state = .filling) ∨
        (f.range = some (l.lo, l.hi) ∧ (l.state = .flushing ∨ l.state = .verifying)))

/-- The filing engine's records fit together.  `marks`: the seal mark is at or below the append point, and that at or below
262,144 (R105).  `runs` and `covered`: each staged block, from the seal mark to the append point, stands in the gather line of
its place, and a line holds no other block (R105, R107, R113).  `quarantined` and `pinned`: a quarantine record names the one
PINNED line of its surface, pinned by three failed verifies (R105, R120).  `flushes` and `oneFlush`: R116 to R118.  `held` and
`parked`: a drive holds or has parked only flush segments IN SERVICE or PARKED, none of which another drive has (R54, R62). -/
structure Jukebox.FilingWf (j : Jukebox) : Prop where
  marks : ∀ n, (j.surface n).sealMark ≤ (j.surface n).appendPoint ∧ (j.surface n).appendPoint ≤ 262144 ∧
    ((j.surface n).condition = .unknown → (j.surface n).sealMark = 262144)
  runs : ∀ l ∈ j.lines, l.surface ≤ 191 ∧ l.lo = max (j.surface l.surface).sealMark (16 * l.index) ∧
    l.hi = min (j.surface l.surface).appendPoint (16 * l.index + 16) ∧ l.lo < l.hi ∧ l.data.length = l.hi - l.lo
  covered : ∀ n b, (j.surface n).sealMark ≤ b → b < (j.surface n).appendPoint → (j.line n (b / 16)).isSome = true
  attempts : ∀ l ∈ j.lines, l.attempts ≤ 3 ∧ (l.state ≠ .pinned → l.attempts ≤ 2)
  pinned : ∀ l ∈ j.lines, l.state = .pinned → ∃ q, (j.surface l.surface).quarantine = some q ∧ q.line = l.index
  quarantined : ∀ n q, (j.surface n).quarantine = some q →
    q.attempts = 3 ∧ ∃ l, j.line n q.line = some l ∧ l.state = .pinned
  flushes : ∀ f ∈ j.flushes, j.flushFits f
  oneFlush : (j.flushes.map Flush.surface).Nodup
  held : ∀ d w n k, (j.drive d).work = some w → w.ref = .flush n k →
    (∃ f, j.flush n = some f ∧ f.line = k ∧ f.state = .inService) ∧
      ∀ x v i, x ≠ d → (j.drive x).work = some v → v.ref ≠ .flush n i
  parked : ∀ d c n k, (j.drive d).parked = some c → c.ref = .flush n k →
    (∃ f, j.flush n = some f ∧ f.line = k ∧ f.state = .parked) ∧
      ∀ x v i, x ≠ d → (j.drive x).parked = some v → v.ref ≠ .flush n i
  segments : ∀ q ∈ j.table, ∀ g ∈ q.segments, g.InRange
  passes : ∀ d p, (j.drive d).pass = some p → p.failed ≤ 2
  parkedPasses : ∀ d c p, (j.drive d).parked = some c → c.pass = some p → p.failed ≤ 2

/-! ## The exchange order queue and the places of the platters (R67, R77) -/

/-- At most one order names a drive, and only the order at the head of the queue is RUNNING or HALTED (R77). -/
structure Jukebox.OrdersWf (j : Jukebox) : Prop where
  drives : (j.orders.map Order.drive).Nodup
  current : ∀ o ∈ j.orders.tail, o.state = .queued

/-- The platters the picker grips and the drives hold. -/
def Jukebox.handled (j : Jukebox) : List Nat :=
  j.picker.gripped.toList ++ allDrives.flatMap fun d => (j.drive d).platter.toList

/-- Every platter is in one place only (R67).  `once`: none is in two drives, or in a drive and the picker.  The records agree
with the drives and the picker: a platter in a drive has its location there, but for one that inventory has still to collect
(R189); a gripped one has location PICKER, or none while inventory runs (log entry 25); so one of location SLOT is in no drive
and not gripped.  `present`: only a present platter has a location.  `tasks` and `orphans` say with what platters inventory
takes up its tasks (R189). -/
structure Jukebox.PlacesWf (j : Jukebox) : Prop where
  once : j.handled.Nodup
  platters : ∀ p ∈ j.handled, p < 96
  drives : ∀ d p, (j.drive d).platter = some p → (j.platter p).location = some (.drive d) ∨
    ((j.platter p).location = none ∧ ∃ t, j.picker.inventory = some t ∧ t.willCollect d = true)
  inDrive : ∀ d p, (j.platter p).location = some (.drive d) → (j.drive d).platter = some p
  gripped : ∀ p, j.picker.gripped = some p → (j.platter p).location = some .picker ∨
    ((j.platter p).location = none ∧ j.picker.inventory ≠ none)
  inPicker : ∀ p, (j.platter p).location = some .picker → j.picker.gripped = some p ∧ j.picker.inventory = none
  present : ∀ p, (j.platter p).present = (j.platter p).location.isSome
  tasks : ∀ t, j.picker.inventory = some t → (∃ d, t = .driveCheck d ∨ t = .driveUnload d ∨ t = .driveGrip d) ∨
    (∃ n, t = .slot n) → j.picker.gripped = none
  orphans : ∀ d p, (j.drive d).reason = some .orphan → (j.drive d).platter = some p →
    (j.platter p).location = some (.drive d)

/-- The command's sensor report agrees with the picker record, and its power-on reports name every platter once: what the
mechanism can report where every platter is in one place (R67; log entry 37). -/
def Jukebox.reportsFit (j : Jukebox) : Instr → Prop
  | .clearPicker _ x => sensed x j.picker.gripped = j.picker.gripped
  | .powerOn good isOpen grip d0 d1 d2 d3 => (Instr.powerOn good isOpen grip d0 d1 d2 d3).wellFormed = true
  | _ => True

/-! ## The control rows (R169) -/

end Sys2Proof.Machine

namespace Sys2Proof

open Sys2Proof.Machine

/-- The sender and the control-window command of a control row. -/
def Instr.asCmd : Instr → Option (Src × Cmd)
  | .unknownCommand src code => some (src, .unknown code)
  | .setWindow src w e f x p => some (src, .setWindow w e f x p)
  | .setFixedRange src i t r w => some (src, .setFixedRange i t r w)
  | .setVariableRange src i v a b t r w => some (src, .setVariableRange i v a b t r w)
  | .setMapControl src m f t r => some (src, .setMapControl m f t r)
  | .setMirrorPair src i v p m => some (src, .setMirrorPair i v p m)
  | .setTariff src cls f n g k sur c => some (src, .setTariff cls f n g k sur c)
  | .setPageSize src p => some (src, .setPageSize p)
  | .applyTariff src => some (src, .applyTariff)
  | .closeDay src a => some (src, .closeDay a)
  | .ackClose src d => some (src, .ackClose d)
  | .setService src m d t b p a => some (src, .setService m d t b p a)
  | .setTiming src d l a w r => some (src, .setTiming d l a w r)
  | .flushAll src => some (src, .flushAll)
  | .resumePicker src => some (src, .resumePicker)
  | .clearDrive src d => some (src, .clearDrive d)
  | .clearPicker src x => some (src, .clearPicker x)
  | .takeOffline src d => some (src, .takeOffline d 0)
  | .returnDrive src d => some (src, .takeOffline d 1)
  | .releaseQuarantineRetry src n => some (src, .releaseQuarantine n 0)
  | .releaseQuarantineDiscard src n => some (src, .releaseQuarantine n 1)
  | .restoreSeal src n m => some (src, .restoreSeal n m)
  | .setControlSet src m => some (src, .setControlSet m)
  | .raiseLock src l => some (src, .raiseLock l)
  | .read .. => none
  | .write .. => none
  | .controlWindowRead .. => none
  | .controlWriteOtherBlock .. => none
  | .frontBusReset => none
  | .powerOn .. => none
  | .batteryGoodFall => none
  | .batteryGoodRise => none
  | .doorOpening => none
  | .doorClosing => none
  | .settleEnd => none
  | .requestDeadlineExpiry .. => none
  | .stagingWaitLimitExpiry .. => none
  | .lineAgeLimitExpiry .. => none
  | .dwellDeadlineExpiry _ => none
  | .spinUpComplete _ => none
  | .spinUpLimit _ => none
  | .spinDownComplete .. => none
  | .spinDownLimit _ => none
  | .driveHardwareReport _ => none
  | .ejectAttemptReport .. => none
  | .ejectAttemptLimit _ => none
  | .burstEnd .. => none
  | .verifyEnd .. => none
  | .pickerArrivesAtDrive => none
  | .pickerGripAtDrive => none
  | .platterReleaseInSlot => none
  | .incomingPlatterGrip => none
  | .pickerGripFailure => none
  | .pickerFlipEnd => none
  | .platterSeated => none
  | .pickerStepLimit => none
  | .pickerRecoveryRelease _ => none
  | .inventorySlotCheck _ => none
  | .statusSend .. => none
  | .powerLoss => none

end Sys2Proof

namespace Sys2Proof.Machine

/-! ## The answer of a control row (R169 to R172) -/

/-- The front bus traffic of a control-window command: its record is fetched and its status sent (R169). -/
def answerBus (src : Src) (st : Status) : List BusMsg :=
  [.fetch src.initiator src.tag 469762048 1, .status src.initiator src.tag st]

/-- A state after the answer to a control-window command: the sender's response record holds the code, the outcome, the
reason and the next sequence number, and the front bus has carried the status (R169, R170). -/
def State.answered (s : State) (src : Src) (code : Byte) (o : CmdOutcome) (r : Reason) : State :=
  { s with
    control := { s.control with
      responses := s.control.responses.set src.initiator
        ⟨code, o, r, s.control.responses[src.initiator].sequence + 1⟩ }
    jb := { s.jb with bus := answerBus src (if o = .refused then .controlRefused else .good) } }

/-- The sender may give control-window commands: the part has power and the sender is in the control set (R173, R184). -/
def State.MayCommand (s : State) (src : Src) : Prop :=
  s.powered = true ∧ s.control.members.getLsbD src.initiator = true

/-- A yes/no field of a command record (R172). -/
def yesNo (b : Bool) : Byte := if b then 1 else 0

/-- The state a command acts on: the front bus traffic of the command before it is gone (log entry 4). -/
def State.fresh (s : State) : State := { s with jb := { s.jb with bus := [] } }

/-- Everything outside the request unit, the arbiter, the drives, the picker and the filing engine is the same. -/
structure State.SameOutside (s t : State) : Prop where
  powered : t.powered = s.powered
  now : t.now = s.now
  batteryLow : t.batteryLow = s.batteryLow
  map : t.map = s.map
  settings : t.settings = s.settings
  control : t.control = s.control
  fee : t.fee = s.fee
  pending : t.pending = s.pending

/-! ## The tests of a control-window command in the order of R171 -/

/-- The commands frozen at a lock level, by the table of R174. -/
def Cmd.frozenAt (lock : Nat) (k : Cmd) : Prop :=
  (1 ≤ lock ∧ cmdCode k = 0x01) ∨
    (2 ≤ lock ∧ (cmdCode k ∈ [0x10, 0x11, 0x12] ∨ k = .closeDay 1)) ∨
    (3 ≤ lock ∧ cmdCode k ∈ [0x02, 0x03, 0x04, 0x05, 0x40])

/-- The codes the fields of a command record may hold, by the format checks of R171 check 4 (R172, R173, R175, R177, R178).  A
field not named here is not format-checked; the other fields of a range made invalid are not either (R177). -/
def Cmd.fieldsFit (k : Cmd) : Prop :=
  let yesNoCodes : List Byte := [0x00, 0x01]
  let routeCodes : List Byte := [0x00, 0x01]
  let typeCodes : List Byte := [0x00, 0x01, 0x02, 0x03, 0x04]
  match k with
  | .setWindow _ enabled _ express writes => enabled ∈ yesNoCodes ∧ express ∈ yesNoCodes ∧ writes ∈ yesNoCodes
  | .setFixedRange _ htype read write => htype ∈ typeCodes ∧ read ∈ routeCodes ∧ write ∈ routeCodes
  | .setVariableRange _ valid _ _ htype read write =>
    valid = 0x00 ∨ (valid = 0x01 ∧ htype ∈ typeCodes ∧ read ∈ routeCodes ∧ write ∈ routeCodes)
  | .setMapControl mapEnable fixedEnable htype routing =>
    mapEnable ∈ yesNoCodes ∧ fixedEnable ∈ yesNoCodes ∧ htype ∈ typeCodes ∧ routing ∈ yesNoCodes
  | .setMirrorPair _ valid _ _ => valid ∈ yesNoCodes
  | .closeDay apply => apply ∈ yesNoCodes
  | .setService mask dispatch tier back preempt autoResume =>
    mask &&& 0xE0 = 0 ∧ dispatch ∈ yesNoCodes ∧ tier ∈ [0x00, 0x01, 0x02, 0x03] ∧
      back ∈ [0x00, 0x01, 0x02, 0x03, 0x04, 0x05, 0x06, 0x07] ∧ preempt ∈ yesNoCodes ∧ autoResume ∈ yesNoCodes
  | .takeOffline _ takeOrReturn => takeOrReturn ∈ [0x00, 0x01]
  | .releaseQuarantine _ action => action ∈ [0x00, 0x01]
  | .setControlSet members => members ≠ 0 ∧ members &&& 0x80 = 0
  | .unknown _ => True
  | .setTariff .. => True
  | .setPageSize _ => True
  | .applyTariff => True
  | .ackClose _ => True
  | .setTiming .. => True
  | .flushAll => True
  | .resumePicker => True
  | .clearDrive _ => True
  | .clearPicker _ => True
  | .restoreSeal .. => True
  | .raiseLock _ => True

/-- What checks 2 and 3 of R171 make of a command that is frozen from lock level `level` on, or at none, `t` being the state
it leaves when it passes them. -/
def State.gated (s : State) (src : Src) (code : Byte) (level : Option Nat) (t : State) : State :=
  if s.control.members.getLsbD src.initiator = false then s.answered src code .refused .notPermitted
  else if ∃ l ∈ level, l ≤ s.control.lock then s.answered src code .refused .locked
  else t

/-- The code of a handling type in a command record (section 1.3). -/
def typeByte : HType → Byte
  | .void => 0
  | .direct => 1
  | .retain => 2
  | .gather => 3
  | .sealed => 4

/-- The code of a read route in a command record (R178). -/
def sideByte : Side → Byte
  | .primary => 0
  | .mirror => 1

/-- The code of a write route in a command record (R178). -/
def routeByte : WriteRoute → Byte
  | .primary => 0
  | .dual => 1

/-! ## A change of the map (R17, R18, R20) -/

/-- The state a map command leaves when its own checks have passed, `m'` being the map it asks for: refused BUSY SURFACE
when the type of a unit of a busy surface would change, refused PAIRED when a unit of the mirror surface of a valid pair
would leave SEALED, and DONE otherwise, with the retain lines of units that leave RETAIN discarded. -/
def State.mapTried (s : State) (src : Src) (code : Byte) (m' : VolumeMap) : State :=
  if ∃ u ∈ mapUnits, (s.map.resolve u.1 u.2).htype ≠ (m'.resolve u.1 u.2).htype ∧ s.jb.busyForMap u.1 = true then
    s.answered src code .refused .busySurface
  else if ∃ u ∈ mapUnits, (s.map.resolve u.1 u.2).htype = .sealed ∧ (m'.resolve u.1 u.2).htype ≠ .sealed ∧
      ∃ p ∈ s.map.pairs.toList, p.valid = true ∧ p.mirror = u.1 then
    s.answered src code .refused .paired
  else
    { s with
      map := m'
      jb := { s.jb with
        retain := s.jb.retain.filter fun l =>
          !((s.map.resolve l.surface (16 * l.index)).htype = HType.retain &&
            (m'.resolve l.surface (16 * l.index)).htype != HType.retain) } }.answered src code .done .none

/-! ## An update event (R139, R147) -/

/-- The fee unit after an update event: a deferred update stays the one it is, requests of the previous generation defer
the update, and otherwise it takes effect. -/
def FeeUnit.updated (f : FeeUnit) : FeeUnit :=
  if f.update = .deferred then f
  else if f.previousCount = 0 then
    { f with
      previous := f.active, active := f.pending, generation := f.generation + 1
      previousCount := f.activeCount, activeCount := 0 }
  else { f with update := .deferred }

/-- The fee unit after every request has left the table at once (R141). -/
def FeeUnit.cleared (f : FeeUnit) : FeeUnit :=
  if f.update = .deferred then
    { f with
      previous := f.active, active := f.pending, generation := f.generation + 1, update := .current
      previousCount := 0, activeCount := 0 }
  else { f with previousCount := 0, activeCount := 0 }

/-! ## Acceptance (R24) -/

/-- Checks 2 to 9 of R24 in their order, each with its status.  Check 1 sends window 7 to the control path. -/
def acceptanceChecks (s : State) (src : Src) (k : Kind) (lba length : Nat) : List (Bool × Status) :=
  let w := s.map.window (lba / 67108864)
  let a := lba % 67108864
  let segs := segmentsOf s.env s.jb k a length
  [(decide (536870912 ≤ lba ∨ 50331648 < a + length), .outOfRange),
    (!w.enabled, .windowClosed),
    (decide (length = 0 ∨ (k = .read ∧ 1024 < length) ∨ (k = .write ∧ 256 < length)), .badLength),
    (decide (k = .write) && !w.writes, .protect),
    (s.jb.table.any fun q => q.initiator = src.initiator && q.tag = src.tag, .duplicateTag),
    (decide (32 ≤ s.jb.table.length ∨ 8 ≤ s.jb.requestsOf src.initiator), .queueFull),
    (segs.any fun g => g.htype = .void, .outOfService),
    (decide (k = .write) && segs.any fun g =>
      g.htype = .sealed || ((g.htype = .direct || g.htype = .retain) &&
        ((s.jb.surface g.surface).condition = .unknown || decide (g.first < (s.jb.surface g.surface).sealMark))),
      .protect)]

/-- The status of the first check that holds, if any does. -/
def firstHolding : List (Bool × Status) → Option Status
  | [] => none
  | c :: rest => if c.1 then some c.2 else firstHolding rest

/-- The READ or WRITE of a kind. -/
def blockCommand (src : Src) (lba length : Nat) (data : List Block) : Kind → Instr
  | .read => .read src lba length
  | .write => .write src lba length data

/-- The state with only a status sent (R22). -/
def State.onlyStatus (s : State) (src : Src) (st : Status) : State :=
  { s with jb := { s.jb with bus := [.status src.initiator src.tag st] } }

/-! ## Leaving the table (R138, R140) -/

/-- The fee unit after a request of a generation has left the table: the count of its generation is one less, and the last
request of the previous generation releases a deferred update. -/
def FeeUnit.left (gen : BitVec 8) (f : FeeUnit) : FeeUnit :=
  if gen = f.generation then { f with activeCount := f.activeCount - 1 }
  else if f.update = .deferred ∧ f.previousCount - 1 = 0 then
    { f with
      previous := f.active, active := f.pending, generation := f.generation + 1, update := .current
      previousCount := f.activeCount, activeCount := 0 }
  else { f with previousCount := f.previousCount - 1 }

/-- The state after the status of a request has been sent, the fee unit having done its part first (R38). -/
def State.sent (s : State) (q : Request) (fee : FeeUnit) : State :=
  { s with
    fee := fee.left q.generation
    jb := { s.jb with
      table := s.jb.table.filter fun x => !(x.initiator = q.initiator && x.tag = q.tag)
      bus := [.status q.initiator q.tag q.status] } }

/-- A charge on a tally record: each field takes its sum, stopping at 4,294,967,295 and then setting the saturated flag
(R135). -/
def Tally.after (t : Tally) (fee pages : Nat) : Tally :=
  { amount := min 4294967295 (t.amount + fee), pages := min 4294967295 (t.pages + pages)
    requests := min 4294967295 (t.requests + 1)
    saturated := t.saturated || decide (4294967295 < t.amount + fee ∨ 4294967295 < t.pages + pages ∨
      4294967295 < t.requests + 1) }

/-! ## Changes of the jukebox alone -/

/-- The state after an event of the jukebox alone, with no traffic on the front bus but what `f` sends. -/
def State.withJb (s : State) (f : Jukebox → Jukebox) : State := { s with jb := f { s.jb with bus := [] } }

/-- The answer to a control-window command that changes the jukebox alone. -/
def State.jbDone (s : State) (src : Src) (code : Byte) (f : Jukebox → Jukebox) : State :=
  ({ s with jb := f s.jb } : State).answered src code .done .none

/-- A gather line with its state left out. -/
def GatherLine.contents (l : GatherLine) : GatherLine := { l with state := .filling }

/-- No request and no flush segment waits for a drive. -/
def Jukebox.NoWork (j : Jukebox) : Prop := j.table = [] ∧ j.flushes = []

/-- No request stands in the staging reservation queue. -/
def Jukebox.NoIntake (j : Jukebox) : Prop := ∀ q ∈ j.table, q.state ≠ .stagingWait

/-- The orders with the running one HALTED (R82, R86). -/
def haltedOrders (l : List Order) : List Order :=
  l.map fun (o : Order) => if o.state = .running then { o with state := .halted } else o

/-- The command byte of drive `d` (R177). -/
def driveByte (d : Fin 4) : Byte := BitVec.ofNat 8 d.val

/-! ## What the readback blocks show (R44, R66, R89, R128, R150, R166, R179 to R183) -/

/-- A field of a readback block: the bytes it takes, and its number, least significant byte first, or none where an optional
field is absent (R182). -/
abbrev Field := Nat × Option Nat

/-- The bytes of a field (R182, section 9.6). -/
def Field.shown : Field → List Byte
  | (n, some v) => (List.range n).map fun k => BitVec.ofNat 8 (v / 256 ^ k)
  | (n, none) => List.replicate n 0xFF

/-- A block that shows a list of fields from byte 0 on, the bytes after them 00h (R182). -/
def shownBlock (fields : List Field) : List Byte :=
  fields.flatMap Field.shown ++ List.replicate (1024 - (fields.flatMap Field.shown).length) 0

/-- A number in `n` bytes. -/
def number (n v : Nat) : Field := (n, some v)

/-- A yes/no field (R172). -/
def yesNoField (b : Bool) : Field := (1, some (if b then 1 else 0))

/-- A named value: its place in its rule's list (R182). -/
def named {α : Type} [DecidableEq α] (list : List α) (x : α) : Field := (1, some (list.idxOf x))

/-- A time in ms, stopping at 4,294,967,295 (R182). -/
def timeField (t : Option Nat) : Field := (4, t.map (min 4294967295))

/-- The handling types in the order of their codes (section 1.3). -/
def typeField (t : HType) : Field := named [.void, .direct, .retain, .gather, .sealed] t

/-- A side of a DUAL pair, or a read route (R9, R105). -/
def sideField (x : Side) : Field := named [.primary, .mirror] x

/-- A write route (R9). -/
def routeField (x : WriteRoute) : Field := named [.primary, .dual] x

/-- The slot or the drive of the check inventory has in hand (R85; log entry 20). -/
def InvTask.place : InvTask → Option Nat
  | .start => none
  | .gripCheck p => some p
  | .gripRelease p => some p
  | .gripInsert _ d => some (96 + d.val)
  | .gripStuck p => some p
  | .driveCheck d => some (96 + d.val)
  | .driveUnload d => some (96 + d.val)
  | .driveGrip d => some (96 + d.val)
  | .driveCarry d _ => some (96 + d.val)
  | .slot n => some n

/-- The slot or the drive inventory has reached: once a slot has been checked, the one checked last (R183, section 10.6; log
entry 20 on the rest). -/
def InvTask.progress (t : InvTask) : Option Nat :=
  match t with
  | .slot n => if n = 0 then none else some (n - 1)
  | _ => t.place

/-- Block 1, in the order of R183. -/
def State.statusFields (s : State) : List Field :=
  [named [.inventory, .parked, .busy, .halted, .fault] s.jb.picker.state,
    named [.closed, .opened, .settling] s.jb.picker.door, yesNoField s.batteryLow,
    named [.current, .deferred] s.fee.update, number 1 s.fee.generation.toNat, number 2 s.fee.day.toNat,
    number 1 (32 - s.jb.lines.length), number 1 s.jb.table.length] ++
  ((List.finRange 7).map fun i => number 1 (s.jb.table.countP fun q => q.initiator = i)) ++
  [number 1 (s.jb.table.countP fun q => q.state = .stagingWait), number 1 s.control.lock,
    number 1 s.control.members.toNat, yesNoField s.jb.picker.inventory.isSome, (1, s.jb.picker.inventory.bind InvTask.progress)]

/-- Block 2: the window table, window 7 last (R3, R21). -/
def VolumeMap.windowFields (m : VolumeMap) : List Field :=
  (m.windows.toList ++ [(⟨true, 0, false, true⟩ : WindowRec)]).flatMap fun r =>
    [yesNoField r.enabled, number 1 r.feeClass, yesNoField r.express, yesNoField r.writes]

/-- Block 3: the extent map and map control (R9 to R11, R21). -/
def VolumeMap.mapFields (m : VolumeMap) : List Field :=
  (m.fixed.toList.flatMap fun r => [typeField r.htype, sideField r.readRoute, routeField r.writeRoute]) ++
  (m.vars.toList.flatMap fun r => [yesNoField r.valid, number 1 r.first, number 1 r.last, typeField r.htype,
    sideField r.readRoute, routeField r.writeRoute]) ++
  [yesNoField m.control.mapEnable, yesNoField m.control.fixedEnable, typeField m.control.defaultType,
    yesNoField m.control.routing]

/-- Block 4: the mirror table (R15, R21). -/
def VolumeMap.mirrorFields (m : VolumeMap) : List Field :=
  m.pairs.toList.flatMap fun p => [yesNoField p.valid, number 1 p.primary, number 1 p.mirror]

/-- A tariff: its page size and its seven class entries (R131, R150). -/
def Tariff.fields (t : Tariff) : List Field :=
  number 1 t.page :: t.classes.toList.flatMap fun c =>
    [number 2 c.f, number 1 c.n, number 1 c.g, number 2 c.k, number 1 c.s, number 3 c.c]

/-- Block 5: the two tariffs with their generations, and the two counts (R150). -/
def FeeUnit.tariffFields (f : FeeUnit) : List Field :=
  f.active.fields ++ [number 1 f.generation.toNat] ++ f.previous.fields ++ [number 1 (f.generation - 1).toNat,
    number 1 f.activeCount, number 1 f.previousCount]

/-- The tally records, the side counts and the tally-lost flag at their places (R181). -/
def tallyFields (tallies : Vector (Vector Tally 7) 7) (sides : Vector SideCounts 7) (lost : Bool) : List Field :=
  ((List.finRange 7).flatMap fun i => (List.finRange 7).flatMap fun c =>
    let t := tallies[i][c]
    [number 4 t.amount, number 4 t.pages, number 4 t.requests, yesNoField t.saturated, number 1 i.val,
      number 1 (c.val + 1), number 1 0]) ++
  ((List.finRange 7).flatMap fun i => [number 4 sides[i].failed, number 4 sides[i].staged]) ++ [yesNoField lost]

/-- Block 8: the close record and its state (R181). -/
def CloseRecord.fields (c : CloseRecord) : List Field :=
  if c.state = .empty then []
  else tallyFields c.tallies c.sides c.tallyLost ++ [number 1 0, number 2 c.day.toNat, number 1 c.generation.toNat,
    number 1 c.inFlight, named [.empty, .unread, .acknowledged] c.state]

/-- The name of a segment (R66; log entry 20). -/
def WorkRef.fields : WorkRef → List Field
  | .request r => [number 1 0, number 1 r.initiator.val, number 1 r.tag.val, number 1 r.index]
  | .flush n k => [number 1 1, number 1 n, number 2 k]

/-- The count of QUEUED segments of a level and the age of the oldest (R51, R66, R182). -/
def State.levelFields (s : State) (l : Level) : List Field :=
  let since : List Nat :=
    if l = .flush then (s.jb.flushes.filter fun f => f.state = .queued).map fun f => f.due
    else (s.jb.table.filter fun q => q.state = .active && q.level = l).flatMap fun q =>
      (q.segments.filter fun g => g.kind = .drive && g.state = .queued).map fun _ => q.accepted
  [number 1 since.length, timeField (since.head?.map fun t => s.now - t)]

/-- The record of a drive in the order of R69, then its eject attempt (R166; log entry 20). -/
def State.driveFields (s : State) (d : Fin 4) : List Field :=
  let x := s.jb.drive d
  [named [.empty, .loading, .ready, .transfer, .verify, .unloading, .fault, .offline] x.state, (1, x.platter), (1, x.mounted)] ++
  (match x.work with
    | some w => w.ref.fields ++ [number 2 x.left]
    | none => [(6, none)]) ++
  (match x.pass with
    | some p => [number 1 p.failed, yesNoField (x.state = .verify), sideField p.side]
    | none => [(3, none)]) ++
  [(1, s.jb.orders.findIdx? fun o => o.drive = d), timeField (x.dwell.map fun t => t - s.now)] ++
  (match x.preempt with
    | some r => (WorkRef.request r).fields
    | none => [(4, none)]) ++
  (match x.parked with
    | some c => c.ref.fields ++ [number 1 c.surface, number 3 c.next, number 2 c.remaining]
    | none => [(10, none)]) ++
  [timeField (some x.lastUse), yesNoField x.offlineFlag,
    (1, x.reason.map fun r => [DriveReason.spinUpLimit, .spinDownLimit, .eject, .hardware, .orphan].idxOf r),
    yesNoField x.ejecting, (1, x.lastEject.map fun o => [EjectOutcome.taken, .notTaken].idxOf o)]

/-- The picker's activity: an order and its step, an inventory check and its place, a recovery step, or none (R85; log
entry 20). -/
def Jukebox.activityFields (j : Jukebox) : List Field :=
  if j.picker.recovering then [number 1 2, (1, none)]
  else match j.picker.inventory with
    | some .start => [(2, none)]
    | some t => [number 1 1, (1, t.place)]
    | none => match j.orders.head? with
      | some o => if o.state = .queued then [(2, none)] else [number 1 0, number 1 o.step]
      | none => [(2, none)]

/-- The picker record in the order of R85 (log entry 20). -/
def State.pickerFields (s : State) : List Field :=
  let p := s.jb.picker
  [named [.inventory, .parked, .busy, .halted, .fault] p.state,
    (1, p.position.map fun x => match x with
      | .slot n => n
      | .drive d => 96 + d.val),
    (1, p.gripped)] ++ s.jb.activityFields ++ [named [.closed, .opened, .settling] p.door] ++
  (match p.halt with
    | some h => [number 1 (match h.back with
        | .parked => 0
        | .busy => 1
        | _ => 2)] ++ s.jb.activityFields ++ [yesNoField h.awaiting]
    | none => [(4, none)]) ++
  [(1, p.reason.map fun r => [PickerReason.stepLimit, .grip].idxOf r), yesNoField s.settings.autoResume]

/-- An exchange order in the order of R76. -/
def Order.fields (o : Order) : List Field :=
  [number 1 o.drive.val, named [.exchange, .turnover, .returnHome] o.kind, (1, o.outgoing), (1, o.incoming),
    (1, o.wanted.map fun x => [PlatterSide.a, .b].idxOf x), yesNoField o.express, number 1 o.step,
    named [.queued, .running, .halted] o.state]

/-- A platter record in the order of R67 (log entry 20). -/
def Platter.fields (p : Platter) : List Field :=
  [yesNoField p.present,
    (1, p.location.map fun l => match l with
      | .slot => 0
      | .drive d => 1 + d.val
      | .picker => 5),
    named [.a, .b] p.orientation, yesNoField p.held, (1, p.misfile)]

/-- Block 9, in the order of R182. -/
def State.mechanismFields (s : State) : List Field :=
  let t := s.settings
  [number 1 t.levelMask.toNat, yesNoField t.dispatch, number 1 t.tierCode, number 1 t.backCode, yesNoField t.preempt,
    timeField (some t.dwell), number 1 t.lowWater, named [.counter, .backOffice] s.jb.lastTier,
    timeField (some (t.lineAge * 1000)), timeField (some (t.stagingWait * 1000)), timeField (some (t.requestLimit * 1000))] ++
  ([Level.express, .counter, .staff, .write, .flush].flatMap s.levelFields) ++
  ((List.finRange 4).flatMap s.driveFields) ++ s.pickerFields ++
  (s.jb.orders.flatMap Order.fields ++ List.replicate (4 - s.jb.orders.length) (8, none)) ++
  s.jb.platters.toList.flatMap Platter.fields

/-- A segment in the order of R44. -/
def Segment.fields (g : Segment) : List Field :=
  [number 1 g.surface, number 3 g.first, number 2 g.count, typeField g.htype, sideField g.readRoute,
    routeField g.writeRoute, named [.ram, .drive] g.kind, named [.queued, .inService, .parked, .done] g.state,
    number 2 g.current, number 1 g.attempts, number 1 g.status.code, sideField g.readSide, number 2 g.served,
    number 2 g.billable, number 2 g.staged, number 1 g.failedVerify, yesNoField g.primaryDone]

/-- A request in the order of R44 with its segments, in 128 bytes (R182; log entry 20 on a missing segment). -/
def State.requestFields (s : State) (q : Request) : List Field :=
  [number 1 q.initiator.val, number 1 q.tag.val, named [.read, .write] q.kind, number 1 q.window, number 1 q.feeClass,
    named [.express, .counter, .staff, .write, .flush] q.level, number 1 q.generation.toNat,
    named [.stagingWait, .active, .completing] q.state, timeField (q.deadline.map fun t => t - s.now),
    number 2 q.delivered, number 2 q.billable, number 2 q.staged, number 1 q.status.code] ++
  q.segments.flatMap Segment.fields ++ List.replicate (2 - q.segments.length) (24, none) ++ List.replicate 61 (number 1 0)

/-- The record of surface `n` with its lines in use, by the table of R180. -/
def State.surfaceFields (s : State) (n : Nat) : List Field :=
  let r := s.jb.surface n
  let pair := (List.finRange 16).find? fun k =>
    s.map.pairs[k].valid && (s.map.pairs[k].primary = n || s.map.pairs[k].mirror = n)
  let lines := s.jb.lines.filter fun l => l.surface = n
  [number 3 r.sealMark, number 3 r.appendPoint, named [.known, .unknown] r.condition, yesNoField r.quarantine.isSome,
    number 2 ((r.quarantine.map fun q => q.line).getD 0),
    sideField ((r.quarantine.map fun q => q.side).getD .primary),
    number 1 ((r.quarantine.map fun q => q.attempts).getD 0), (1, pair.map fun k => k.val),
    number 1 (match pair with
      | none => 0
      | some k => if s.map.pairs[k].primary = n then 1 else 2),
    number 1 (match (s.jb.flushes.find? fun f => f.surface = n).map Flush.state with
      | none => 0
      | some .queued => 1
      | some .inService => 2
      | some .parked => 3),
    number 1 lines.length] ++
  lines.flatMap fun l =>
    [number 2 l.index, number 1 (match l.state with
        | .filling => 1
        | .flushing => 2
        | .verifying => 3
        | .pinned => 4),
      number 1 (l.lo - 16 * l.index), number 1 (l.hi - 1 - 16 * l.index), yesNoField l.due.isSome, number 1 l.attempts,
      number 1 0, timeField (some (s.now - l.firstStaged)), timeField (some ((l.due.map fun t => s.now - t).getD 0))]

/-- The fields of a control-window block as initiator `i` reads it (section 9.1, R179 to R183). -/
def State.blockFields (s : State) (i : Fin 7) : Nat → List Field
  | 0 =>
    let r := s.control.responses[i]
    [number 1 r.code.toNat, named [.done, .clamped, .refused] r.outcome,
      named [.none, .unknownCommand, .notPermitted, .badValue, .locked, .updatePending, .closeUnread, .busySurface, .paired,
        .notQuarantined, .state, .doorOpen] r.reason,
      number 1 r.sequence.toNat, number 1 i.val]
  | 1 => s.statusFields
  | 2 => s.map.windowFields
  | 3 => s.map.mapFields
  | 4 => s.map.mirrorFields
  | 5 => s.fee.tariffFields
  | 6 => s.fee.pending.fields
  | 7 => tallyFields s.fee.tallies s.fee.sides s.fee.tallyLost
  | 8 => s.fee.close.fields
  | 9 => s.mechanismFields
  | b => if b < 14 then ((s.jb.table.drop (8 * (b - 10))).take 8).flatMap s.requestFields else s.surfaceFields (b - 16)

/-- The lists readback shows are no longer than the spec lets them be: 4 orders (R77), 32 gather lines (R107) and two segments
of a request (R28); and a name stands for one request or flush segment only (R25, R116). -/
def Jukebox.Showable (j : Jukebox) : Prop :=
  j.orders.length ≤ 4 ∧ j.lines.length ≤ 32 ∧ (∀ q ∈ j.table, q.segments.length = 1 ∨ q.segments.length = 2) ∧
    (j.table.map fun q => (q.initiator, q.tag)).Nodup ∧ (j.flushes.map Flush.surface).Nodup

end Sys2Proof.Machine
end

