-- ==== Sys2Proof/Certificates/Slice0/Obligations.lean ====
section
/-! DEFINITION. The statements for the provers, taken from the numbered rules of spec/. -/

open Sys2Proof Sys2Proof.Machine

/-! ## The step, the queue and time -/

/-- A step with a command at the front of the queue is that command's effect on the state with the queue's rest. -/
def Obligations.StepTakesTheFrontCommand : Prop :=
  ∀ (c : Instr) (rest : List Instr) (s : State),
    step { s with pending := c :: rest } = exec c { s with pending := rest }

/-- A step with an empty queue lets 1 ms of running time pass and queues exactly the part's own events of that moment and no
other command; a part without power stands still (R184 on running time).  That a tick brings these events is the model's
choice: log entries 1 and 3. -/
def Obligations.IdleStepLetsOneMsPass : Prop :=
  ∀ s : State, s.pending = [] → ∃ t, step s = .next t ∧
    (s.powered = false → t = s) ∧
    (s.powered = true →
      t = { s with now := s.now + 1, jb := { s.jb with bus := [] }, pending := t.pending } ∧
      (∀ c ∈ t.pending, match c with
        | .statusSend .. | .requestDeadlineExpiry .. | .stagingWaitLimitExpiry .. | .lineAgeLimitExpiry ..
        | .dwellDeadlineExpiry _ | .spinUpLimit _ | .spinDownLimit _ | .ejectAttemptLimit _ | .pickerStepLimit
        | .settleEnd => True
        | _ => False) ∧
      (∀ i g, .statusSend i g ∈ t.pending ↔
        ∃ q ∈ s.jb.table, q.initiator = i ∧ q.tag = g ∧ q.state = .completing ∧ ∀ x ∈ q.segments, x.state ≠ .inService) ∧
      (∀ i g, .requestDeadlineExpiry i g ∈ t.pending ↔
        ∃ q ∈ s.jb.table, q.initiator = i ∧ q.tag = g ∧ q.state ≠ .completing ∧
          ∃ x, q.deadline = some x ∧ x ≤ s.now + 1) ∧
      (∀ i g, .stagingWaitLimitExpiry i g ∈ t.pending ↔
        ∃ q ∈ s.jb.table, q.initiator = i ∧ q.tag = g ∧ q.state = .stagingWait ∧
          (∀ x, q.deadline = some x → s.now + 1 < x) ∧ ∃ x, q.stagingExpiry = some x ∧ x ≤ s.now + 1) ∧
      (∀ n k, .lineAgeLimitExpiry n k ∈ t.pending ↔
        ∃ l ∈ s.jb.lines, l.surface = n ∧ l.index = k ∧ l.state = .filling ∧ l.due = none ∧ l.ageExpiry ≤ s.now + 1) ∧
      (∀ d, .dwellDeadlineExpiry d ∈ t.pending ↔ ∃ x, (s.jb.drive d).dwell = some x ∧ x ≤ s.now + 1) ∧
      (∀ d, .spinUpLimit d ∈ t.pending ↔
        (s.jb.drive d).state = .loading ∧ ∃ x, (s.jb.drive d).limit = some x ∧ x ≤ s.now + 1) ∧
      (∀ d, .spinDownLimit d ∈ t.pending ↔
        (s.jb.drive d).state = .unloading ∧ ∃ x, (s.jb.drive d).limit = some x ∧ x ≤ s.now + 1) ∧
      (∀ d, .ejectAttemptLimit d ∈ t.pending ↔
        (s.jb.drive d).state = .fault ∧ ∃ x, (s.jb.drive d).limit = some x ∧ x ≤ s.now + 1) ∧
      (.pickerStepLimit ∈ t.pending ↔ ∃ x, s.jb.picker.stepLimit = some x ∧ x ≤ s.now + 1) ∧
      (.settleEnd ∈ t.pending ↔ ∃ x, s.jb.picker.settleEnd = some x ∧ x ≤ s.now + 1))

/-- No command stops the part: each answers a next state.  The queue is never touched; running time and power change at a
power-on and a power loss only, and a part without power takes nothing but a power-on (R184; log entries 2 and 6). -/
def Obligations.EveryCommandAnswersANextState : Prop :=
  ∀ (c : Instr) (s : State), ∃ t, exec c s = .next t ∧ t.pending = s.pending ∧
    match c with
    | .powerOn .. => t.powered = true
    | .powerLoss => t.powered = false ∧ t.now = s.now
    | _ => t.powered = s.powered ∧ t.now = s.now ∧ (s.powered = false → t = s)

/-! ## Invariants -/

/-- Every step keeps the stored values of the map (R5, R9, R10, R15), the settings (R46, R114, R176), the tariffs (R131), the
tallies and side counts of the open day and of the close record (R135, R136, R145), the control set (R173) and the lock level
(R174) in their ranges; the in-flight count of the close record stays a count of requests the table holds.  Marks, lines and
attempts: StepKeepsBufferMemory. -/
def Obligations.StepKeepsStoredValuesInRange : Prop :=
  (∀ s t : State, s.InRange → step s = .next t → t.InRange) ∧
  ∀ s t : State, s.jb.TableWf → s.fee.close.inFlight ≤ 32 → step s = .next t → t.fee.close.inFlight ≤ 32

/-- Every step keeps the request table's form (R25, R26), the two generations its requests carry (R27) and the fee unit's
counts of them (R138); the form of the exchange order queue, at most one order for a drive and the current order first (R77);
and every platter in one place only, with records that agree with the drives and the picker (R67).  The last is stated for
reports the mechanism can send: a power-on that names no platter twice, and at CLEAR PICKER a sensor that agrees with the
picker record (log entry 37 on one that does not). -/
def Obligations.StepKeepsTableAndFeeCounts : Prop :=
  (∀ s t : State, s.jb.TableWf → s.FeeCountsAgree → step s = .next t → t.jb.TableWf ∧ t.FeeCountsAgree) ∧
  (∀ s t : State, s.jb.OrdersWf → step s = .next t → t.jb.OrdersWf) ∧
  ∀ s t : State, s.jb.PlacesWf → (∀ c ∈ s.pending.head?, s.jb.reportsFit c) → step s = .next t → t.jb.PlacesWf

/-- Every step keeps buffer memory in its one form: no two gather lines of one place and at most 32 (R107), no two retain lines
of one place and at most 96 (R95).  It keeps what the filing engine's records say of it, too: seal mark ≤ append point ≤
262,144 on every surface, each staged block in the one gather line of its place (R105, R113), PINNED lines and quarantine
records together with three attempts used (R120), a flush segment for the lowest line of a surface only (R116), and at most two
attempts or failed verifies counted while a segment goes on (R119, R125, R151); the records need the request table's form
(R25), by which a segment's name stands for one segment. -/
def Obligations.StepKeepsBufferMemory : Prop :=
  ∀ s t : State, s.jb.BufferWf → step s = .next t → t.jb.BufferWf ∧
    (s.jb.TableWf → s.jb.FilingWf → t.jb.FilingWf)

/-- The state after reset meets the invariants. -/
def Obligations.ResetMeetsTheInvariants : Prop :=
  State.reset.InRange ∧ State.reset.jb.TableWf ∧ State.reset.FeeCountsAgree ∧ State.reset.jb.BufferWf ∧
    State.reset.jb.FilingWf ∧ State.reset.jb.OrdersWf ∧ State.reset.jb.PlacesWf

/-! ## Frames of the whole part -/

/-- Block requests of windows 0..6 and all events but power leave the volume map, the settings and the control unit as they
were; of these only READ, WRITE, STATUS_SEND and FRONT_BUS_RESET may touch the fee unit, of which nothing is said here, and
only the battery-good input the mode (R21, R46, R170, R173, R174, R192). -/
def Obligations.EventsLeaveConfigurationAlone : Prop :=
  ∀ (c : Instr) (s t : State), c.asCmd = none → exec c s = .next t →
    (match c with
      | .powerOn .. => True
      | .powerLoss => t.map = s.map ∧ t.settings = s.settings ∧ t.control.members = s.control.members
      | .write _ lba _ _ =>
        lba / 67108864 = 7 ∨ (t.map = s.map ∧ t.settings = s.settings ∧ t.control = s.control)
      | _ => t.map = s.map ∧ t.settings = s.settings ∧ t.control = s.control) ∧
    (match c with
      | .read .. => True
      | .write .. => True
      | .statusSend .. => True
      | .frontBusReset => True
      | .powerOn .. => True
      | .powerLoss => True
      | _ => t.fee = s.fee) ∧
    match c with
    | .batteryGoodFall => True
    | .batteryGoodRise => True
    | .powerOn .. => True
    | .powerLoss => True
    | _ => t.batteryLow = s.batteryLow

/-- No command but a passed verify, RESTORE SEAL and a power-on moves a seal mark, and none but the last two a condition:
"No number of drive faults and retries moves the seal mark of a surface except a passed verify" (R163; R105, R106). -/
def Obligations.SealMarksMoveOnlyAtAPassedVerify : Prop :=
  ∀ (c : Instr) (s t : State) (n : Nat), exec c s = .next t →
    match c with
    | .powerOn .. => True
    | .restoreSeal .. => True
    | .write _ lba _ _ =>
      lba / 67108864 = 7 ∨ ((t.jb.surface n).sealMark = (s.jb.surface n).sealMark ∧
        (t.jb.surface n).condition = (s.jb.surface n).condition)
    | .verifyEnd _ true => (t.jb.surface n).condition = (s.jb.surface n).condition
    | _ => (t.jb.surface n).sealMark = (s.jb.surface n).sealMark ∧
        (t.jb.surface n).condition = (s.jb.surface n).condition

/-! ## The control window: tests and answers -/

/-- Every control row is answered at its event: the sender's response record takes the code, the outcome, the reason and the
next sequence number, no other record changes, and the last thing on the front bus is the status of the outcome (R169,
R170). -/
def Obligations.ControlCommandIsAnswered : Prop :=
  ∀ (c : Instr) (s : State) (src : Src) (k : Cmd), c.asCmd = some (src, k) → s.powered = true →
    ∃ (t : State) (o : CmdOutcome) (r : Reason), exec c s = .next t ∧
      t.control.responses = s.control.responses.set src.initiator
        ⟨cmdCode k, o, r, s.control.responses[src.initiator].sequence + 1⟩ ∧
      (o = .refused ↔ r ≠ .none) ∧
      t.jb.bus.getLast? =
        some (.status src.initiator src.tag (if o = .refused then .controlRefused else .good))

/-- "A refused command changes nothing but its initiator's response record" (R171). -/
def Obligations.RefusedCommandChangesNothing : Prop :=
  ∀ (c : Instr) (s t : State) (src : Src) (k : Cmd), c.asCmd = some (src, k) → s.powered = true →
    exec c s = .next t → t.control.responses[src.initiator].outcome = .refused →
    t = s.answered src (cmdCode k) .refused t.control.responses[src.initiator].reason

/-- Checks 1 to 4 of R171 in their order: an unknown code, an initiator outside the control set, a command frozen at the
lock level by the table of R174, and a field that fails its format check: a yes/no field or a route that is not 00h or 01h, a
type above 04h, a bit field with a bit beyond what it names, a tier code above 3 or a back-office code above 7, an initiator
set with no member (`Cmd.fieldsFit`: R172, R173, R175, R177, R178).  It holds for the control rows, UNKNOWN_COMMAND being the
row of the first check, and for a WRITE of any command record to block 0 of the window. -/
def Obligations.ControlChecksInOrder : Prop :=
  ∀ (c : Instr) (s : State) (src : Src) (k : Cmd),
    (c.asCmd = some (src, k) ∨ ∃ data, c = .write src 469762048 1 [data] ∧ decodeRecord data = k) → s.powered = true →
    (cmdUnknown k = true → exec c s = .next (s.answered src (cmdCode k) .refused .unknownCommand)) ∧
    (cmdUnknown k = false → s.control.members.getLsbD src.initiator = false →
      exec c s = .next (s.answered src (cmdCode k) .refused .notPermitted)) ∧
    (cmdUnknown k = false → s.control.members.getLsbD src.initiator = true → Cmd.frozenAt s.control.lock k →
      exec c s = .next (s.answered src (cmdCode k) .refused .locked)) ∧
    (cmdUnknown k = false → s.control.members.getLsbD src.initiator = true → ¬ Cmd.frozenAt s.control.lock k →
      ¬ Cmd.fieldsFit k → exec c s = .next (s.answered src (cmdCode k) .refused .badValue))

/-! ## The volume map's commands -/

/-- SET WINDOW: a window of 7 or more or a class above 7 is refused BAD VALUE; otherwise all four fields are replaced and
nothing else changes (R5). -/
def Obligations.SetWindowReplacesTheRecord : Prop :=
  ∀ (s : State) (src : Src) (w f : Byte) (e x p : Bool), s.powered = true →
    exec (.setWindow src w (yesNo e) f (yesNo x) (yesNo p)) s = .next (s.gated src 0x01 (some 1)
      (if h : w.toNat < 7 ∧ f.toNat ≤ 7 then
        ({ s with map := { s.map with
            windows := s.map.windows.set w.toNat ⟨e, f.toNat, x, p⟩ h.1 } } : State).answered src 0x01 .done .none
      else s.answered src 0x01 .refused .badValue))

/-- SET FIXED RANGE: an index above 31 or type GATHER is refused BAD VALUE, a route other than PRIMARY with routing enable
off is refused STATE, and the map with the new range is tried (R9, R12, R17, R18, R20).  Which segments make a surface busy
(`Jukebox.busyForMap`) is the model's reading of R17: log entry 28. -/
def Obligations.SetFixedRangeTriesTheMap : Prop :=
  ∀ (s : State) (src : Src) (i : Byte) (ty : HType) (r : Side) (w : WriteRoute), s.powered = true →
    exec (.setFixedRange src i (typeByte ty) (sideByte r) (routeByte w)) s = .next (s.gated src 0x02 (some 3)
      (if h : i.toNat < 32 ∧ ty ≠ .gather then
        if (r = .mirror ∨ w = .dual) ∧ s.map.control.routing = false then s.answered src 0x02 .refused .state
        else s.mapTried src 0x02 { s.map with fixed := s.map.fixed.set i.toNat ⟨ty, r, w⟩ h.1 }
      else s.answered src 0x02 .refused .badValue))

/-- SET VARIABLE RANGE: with valid set its values and routes are tested and the map with the new range is tried; with valid
clear the range takes its cold-start values, whatever the other fields hold (R10, R12, R17, R18, R20).  Which segments make a
surface busy is the model's reading of R17: log entry 28. -/
def Obligations.SetVariableRangeTriesTheMap : Prop :=
  ∀ (s : State) (src : Src) (i a b : Byte), s.powered = true →
    (∀ (ty : HType) (r : Side) (w : WriteRoute),
      exec (.setVariableRange src i 1 a b (typeByte ty) (sideByte r) (routeByte w)) s = .next (s.gated src 0x03 (some 3)
        (if h : i.toNat < 16 ∧ a.toNat ≤ b.toNat ∧ b.toNat ≤ 191 ∧ ¬ (ty = .gather ∧ a.toNat ≤ 1) then
          if (r = .mirror ∨ w = .dual) ∧ s.map.control.routing = false then s.answered src 0x03 .refused .state
          else s.mapTried src 0x03 { s.map with
            vars := s.map.vars.set i.toNat ⟨true, a.toNat, b.toNat, ty, r, w⟩ h.1 }
        else s.answered src 0x03 .refused .badValue))) ∧
    ∀ ty r w : Byte,
      exec (.setVariableRange src i 0 a b ty r w) s = .next (s.gated src 0x03 (some 3)
        (if h : i.toNat < 16 then
          s.mapTried src 0x03 { s.map with vars := s.map.vars.set i.toNat ⟨false, 0, 0, .void, .primary, .primary⟩ h }
        else s.answered src 0x03 .refused .badValue))

/-- SET MAP CONTROL: the map with the four new fields is tried (R11, R17, R18, R20).  Which segments make a surface busy is the
model's reading of R17: log entry 28. -/
def Obligations.SetMapControlTriesTheMap : Prop :=
  ∀ (s : State) (src : Src) (m f r : Bool) (ty : HType), s.powered = true →
    exec (.setMapControl src (yesNo m) (yesNo f) (typeByte ty) (yesNo r)) s = .next (s.gated src 0x04 (some 3)
      (s.mapTried src 0x04 { s.map with control := ⟨m, f, ty, r⟩ }))

/-- SET MIRROR PAIR: the four checks of R15 in their order, and the pair written; with valid clear the named pair is made
invalid in any state of the table (R15).  That its surface numbers then stay as they were is the model's choice: log entry
19. -/
def Obligations.SetMirrorPairChecksInOrder : Prop :=
  ∀ (s : State) (src : Src) (i p m : Byte), s.powered = true →
    exec (.setMirrorPair src i 1 p m) s = .next (s.gated src 0x05 (some 3)
      (if h : i.toNat < 16 ∧ p.toNat ≤ 191 ∧ m.toNat ≤ 191 then
        if p.toNat / 2 = m.toNat / 2 then s.answered src 0x05 .refused .badValue
        else if ∃ u ∈ mapUnits, u.1 = m.toNat ∧ (s.map.resolve u.1 u.2).htype ≠ .sealed then
          s.answered src 0x05 .refused .badValue
        else if ∃ k : Fin 16, k.val ≠ i.toNat ∧ s.map.pairs[k].valid = true ∧
            (s.map.pairs[k].primary = p.toNat ∨ s.map.pairs[k].mirror = p.toNat ∨
              s.map.pairs[k].primary = m.toNat ∨ s.map.pairs[k].mirror = m.toNat) then
          s.answered src 0x05 .refused .paired
        else
          ({ s with map := { s.map with
            pairs := s.map.pairs.set i.toNat ⟨true, p.toNat, m.toNat⟩ h.1 } } : State).answered src 0x05 .done .none
      else s.answered src 0x05 .refused .badValue)) ∧
    exec (.setMirrorPair src i 0 p m) s = .next (s.gated src 0x05 (some 3)
      (if h : i.toNat < 16 then
        ({ s with map := { s.map with
          pairs := s.map.pairs.set i.toNat { s.map.pairs[i.toNat] with valid := false } h } } : State).answered
            src 0x05 .done .none
      else s.answered src 0x05 .refused .badValue))

/-! ## The fee unit's commands -/

/-- SET TARIFF writes one class entry of the pending tariff, with G and S clamped, and nothing else (R142). -/
def Obligations.SetTariffWritesThePendingEntry : Prop :=
  ∀ (s : State) (src : Src) (cls : Byte) (f : BitVec 16) (n g : Byte) (k : BitVec 16) (sur : Byte) (c : BitVec 24),
    s.powered = true →
    exec (.setTariff src cls f n g k sur c) s = .next (s.gated src 0x10 (some 2)
      (if h : 1 ≤ cls.toNat ∧ cls.toNat ≤ 7 then
        if s.fee.update = .deferred then s.answered src 0x10 .refused .updatePending
        else
          ({ s with fee := { s.fee with pending := { s.fee.pending with
            classes := s.fee.pending.classes.set (cls.toNat - 1)
              ⟨f.toNat, n.toNat, max 1 (min 16 g.toNat), k.toNat, min 200 sur.toNat, c.toNat⟩ (by omega) } } } : State).answered
              src 0x10 (if g.toNat < 1 ∨ 16 < g.toNat ∨ 200 < sur.toNat then .clamped else .done) .none
      else s.answered src 0x10 .refused .badValue))

/-- SET PAGE SIZE writes the page size of the pending tariff, clamped to 1..64, and nothing else (R143). -/
def Obligations.SetPageSizeWritesThePendingPage : Prop :=
  ∀ (s : State) (src : Src) (p : Byte), s.powered = true →
    exec (.setPageSize src p) s = .next (s.gated src 0x11 (some 2)
      (if s.fee.update = .deferred then s.answered src 0x11 .refused .updatePending
      else
        ({ s with fee := { s.fee with pending := { s.fee.pending with page := max 1 (min 64 p.toNat) } } } : State).answered
          src 0x11 (if p.toNat < 1 ∨ 64 < p.toNat then .clamped else .done) .none))

/-- APPLY TARIFF is an update event: it takes effect at once when no request carries the previous generation, is deferred
otherwise, and is refused UPDATE PENDING while an update is deferred (R139, R144). -/
def Obligations.ApplyTariffIsAnUpdateEvent : Prop :=
  ∀ (s : State) (src : Src), s.powered = true →
    exec (.applyTariff src) s = .next (s.gated src 0x12 (some 2)
      (if s.fee.update = .deferred then s.answered src 0x12 .refused .updatePending
      else ({ s with fee := s.fee.updated } : State).answered src 0x12 .done .none))

/-- CLOSE DAY captures the day in the close record and opens the next; with apply the update event follows (R145 to R147).
It is refused CLOSE UNREAD while the close record is UNREAD. -/
def Obligations.CloseDayCapturesTheDay : Prop :=
  ∀ (s : State) (src : Src) (a : Bool), s.powered = true →
    let closed : FeeUnit := { s.fee with
      close := ⟨.unread, s.fee.day, s.fee.generation, s.fee.tallies, s.fee.sides,
        (s.jb.table.filter fun q => q.kind = .read && 1 ≤ q.feeClass).length, s.fee.tallyLost⟩
      tallies := Vector.replicate 7 (Vector.replicate 7 ⟨0, 0, 0, false⟩), sides := Vector.replicate 7 ⟨0, 0⟩
      tallyLost := false, day := s.fee.day + 1 }
    exec (.closeDay src (yesNo a)) s = .next (s.gated src 0x13 (if a then some 2 else none)
      (if s.fee.close.state = .unread then s.answered src 0x13 .refused .closeUnread
      else ({ s with fee := if a then closed.updated else closed } : State).answered src 0x13 .done .none))

/-- ACK CLOSE acknowledges the close record of the day it names (R148); no lock level freezes it. -/
def Obligations.AckCloseNamesTheDay : Prop :=
  ∀ (s : State) (src : Src) (day : BitVec 16), s.powered = true →
    exec (.ackClose src day) s =
      .next (if s.control.members.getLsbD src.initiator = false then s.answered src 0x14 .refused .notPermitted
      else if s.fee.close.state ≠ .unread then s.answered src 0x14 .refused .state
      else if day ≠ s.fee.close.day then s.answered src 0x14 .refused .badValue
      else ({ s with fee := { s.fee with close := { s.fee.close with state := .acknowledged } } } : State).answered
        src 0x14 .done .none)

/-! ## Settings, the control set and the lock -/

/-- SET SERVICE writes its six settings (R175).  It withdraws every pending preemption when the new settings let none stand
(R50), and sweeps when they open work, told by comparing the old settings with the new: both are log entry 34's reading.  When
it opens no work, or none waits, nothing else changes; and when it opens work with dispatch enable on, it leaves no drive free
for an eligible segment of an enabled level (R50, R56). -/
def Obligations.SetServiceWritesSixSettings : Prop :=
  ∀ (s : State) (src : Src) (mask tier back : Byte) (dis pre auto : Bool), s.MayCommand src →
    mask.toNat < 32 → tier.toNat ≤ 3 → back.toNat ≤ 7 →
    let new : Settings := { s.settings with
      levelMask := BitVec.ofNat 5 mask.toNat, dispatch := dis
      tierCode := if tier.toNat = 3 then 0 else tier.toNat
      backCode := if 5 < back.toNat then 0 else back.toNat, preempt := pre, autoResume := auto }
    let o : CmdOutcome := if tier.toNat = 3 ∨ 5 < back.toNat then .clamped else .done
    let opens : Prop := (s.settings.dispatch = false ∧ dis = true) ∨
      ∃ l : Level, s.settings.enables l = false ∧ new.enables l = true
    let drives := if dis && pre && mask.getLsbD 0 then s.jb.drives else s.jb.drives.map fun x => { x with preempt := none }
    ∃ t, exec (.setService src mask (yesNo dis) tier back (yesNo pre) (yesNo auto)) s = .next t ∧
      t.settings = new ∧ t.map = s.map ∧ t.fee = s.fee ∧ t.control.members = s.control.members ∧
      t.control.responses[src.initiator].outcome = o ∧
      (¬ opens ∨ (s.jb.table = [] ∧ s.jb.flushes = []) →
        t = ({ s with settings := new, jb := { s.jb with drives := drives } } : State).answered src 0x20 o .none) ∧
      (opens → dis = true → ∀ l : Level, new.enables l = true → ∀ it ∈ t.jb.queued l, ∀ d,
        (t.jb.freeFor it.target d && t.jb.eligible it.target d) = false)

/-- SET TIMING writes its five settings, each clamped to its range, and nothing else (R176). -/
def Obligations.SetTimingClampsEachSetting : Prop :=
  ∀ (s : State) (src : Src) (dwell : BitVec 16) (low : Byte) (age wait limit : BitVec 16), s.MayCommand src →
    exec (.setTiming src dwell low age wait limit) s =
      .next (({ s with settings := { s.settings with
          dwell := min 10000 dwell.toNat, lowWater := min 31 low.toNat, lineAge := max 1 (min 600 age.toNat)
          stagingWait := max 1 (min 300 wait.toNat), requestLimit := min 3600 limit.toNat } } : State).answered src 0x21
        (if dwell.toNat ≤ 10000 ∧ low.toNat ≤ 31 ∧ 1 ≤ age.toNat ∧ age.toNat ≤ 600 ∧ 1 ≤ wait.toNat ∧ wait.toNat ≤ 300 ∧
            limit.toNat ≤ 3600 then .done else .clamped) .none)

/-- SET CONTROL SET replaces the control set by the set its bits name and changes nothing else (R173). -/
def Obligations.SetControlSetReplacesTheSet : Prop :=
  ∀ (s : State) (src : Src) (m : Byte), s.powered = true →
    exec (.setControlSet src m) s = .next (s.gated src 0x40 (some 3)
      (if 1 ≤ m.toNat ∧ m.toNat ≤ 127 then
        ({ s with control := { s.control with members := BitVec.ofNat 7 m.toNat } } : State).answered src 0x40 .done .none
      else s.answered src 0x40 .refused .badValue))

/-- RAISE LOCK sets a level of 1..3 above the present one and is refused BAD VALUE otherwise; no other command but a power-on,
which clears it, and a power loss, of which nothing is said here (log entry 6), changes the lock level (R174). -/
def Obligations.LockOnlyRises : Prop :=
  (∀ (s : State) (src : Src) (l : Byte), s.MayCommand src →
    exec (.raiseLock src l) s = .next
      (if s.control.lock < l.toNat ∧ l.toNat ≤ 3 then
        ({ s with control := { s.control with lock := l.toNat } } : State).answered src 0x41 .done .none
      else s.answered src 0x41 .refused .badValue)) ∧
  ∀ (c : Instr) (s t : State), exec c s = .next t →
    match c with
    | .powerOn .. => t.control.lock = 0
    | .powerLoss => True
    | .raiseLock .. => s.control.lock ≤ t.control.lock
    | .write .. => s.control.lock ≤ t.control.lock
    | _ => t.control.lock = s.control.lock

/-! ## Access to the control window -/

/-- Every READ and WRITE of window 7 is tested for its length, its block number and a WRITE's target, in this order; one that
is refused gets its status and changes no state of the part (R167).  It holds for the rows of READ and WRITE and for the
control window's own rows. -/
def Obligations.ControlAccessChecksInOrder : Prop :=
  ∀ (s : State) (src : Src) (b n : Nat) (data : List Block), s.powered = true → b < 67108864 →
    let unused : Prop := b = 14 ∨ b = 15 ∨ 208 ≤ b
    let reads : List Instr := [.controlWindowRead src b n, .read src (469762048 + b) n]
    let writes : List Instr := [.controlWriteOtherBlock src b n, .write src (469762048 + b) n data]
    (∀ c ∈ reads ++ writes, n ≠ 1 → exec c s = .next (s.onlyStatus src .badLength)) ∧
    (∀ c ∈ reads ++ writes, n = 1 → unused → exec c s = .next (s.onlyStatus src .outOfRange)) ∧
    (∀ c ∈ writes, n = 1 → ¬ unused → b ≠ 0 → exec c s = .next (s.onlyStatus src .protect))

/-- A control-window READ that passes its checks delivers 1,024 bytes and the status GOOD and changes nothing (R168); block 0
holds the reader's response record (R179), and block 16 + n the marks of surface n (R180).  Every block in use shows the fields
R179 to R183 name (`State.blockFields`), in their order and widths from byte 0 on, and 00h after them; where R182 leaves the
encoding of a field open it is log entry 20's. -/
def Obligations.ControlReadIsServed : Prop :=
  ∀ (s : State) (src : Src) (b : Nat), s.powered = true → b ≤ 13 ∨ (16 ≤ b ∧ b ≤ 207) →
    ∃ bytes : List Byte,
      exec (.controlWindowRead src b 1) s =
        .next { s with jb := { s.jb with
          bus := [.readback src.initiator src.tag b bytes, .status src.initiator src.tag .good] } } ∧
      bytes.length = 1024 ∧
      (s.jb.Showable → bytes = shownBlock (s.blockFields src.initiator b)) ∧
      (b = 0 →
        let r := s.control.responses[src.initiator]
        bytes.take 5 = [r.code,
          match r.outcome with
          | .done => 0
          | .clamped => 1
          | .refused => 2,
          match r.reason with
          | .none => 0x00
          | .unknownCommand => 0x01
          | .notPermitted => 0x02
          | .badValue => 0x03
          | .locked => 0x04
          | .updatePending => 0x05
          | .closeUnread => 0x06
          | .busySurface => 0x07
          | .paired => 0x08
          | .notQuarantined => 0x09
          | .state => 0x0A
          | .doorOpen => 0x0B,
          r.sequence, BitVec.ofNat 8 src.initiator.val] ∧
        ∀ x ∈ bytes.drop 5, x = 0) ∧
      (16 ≤ b →
        let r := s.jb.surface (b - 16)
        bytes.take 8 = [BitVec.ofNat 8 r.sealMark, BitVec.ofNat 8 (r.sealMark / 256), BitVec.ofNat 8 (r.sealMark / 65536),
          BitVec.ofNat 8 r.appendPoint, BitVec.ofNat 8 (r.appendPoint / 256), BitVec.ofNat 8 (r.appendPoint / 65536),
          if r.condition = .known then 0 else 1, if r.quarantine.isSome then 1 else 0])

/-- A command record decodes to the command it was written from, for every command of the table and every value of its
parameters; a code outside the table decodes to an unknown command of that code (R178).  CLEAR PICKER carries no parameter:
its record stands for the sensor report that agrees with the picker record (log entry 27). -/
def Obligations.CommandRecordRoundTrip : Prop :=
  (∀ k : Cmd, cmdUnknown k = false → (∀ x, k = .clearPicker x → x = .asRecorded) → decodeRecord (encodeRecord k) = k) ∧
  (∀ code : Byte, code ∉ knownCodes → decodeRecord (encodeRecord (.unknown code)) = .unknown code) ∧
  ∀ b : Block, cmdCode (decodeRecord b) = byteAt b 0

/-- A one-block WRITE of block 0 of window 7 is the control row its record spells, and a READ of window 7 is the
control-window read of its block (R1, R169).  That a control row of the table stands for that WRITE in full, with CLEAR
PICKER's sensor then agreeing with the picker record, is log entry 27. -/
def Obligations.WindowSevenIsTheControlWindow : Prop :=
  (∀ (c : Instr) (s : State) (src : Src) (k : Cmd) (data : Block), c.asCmd = some (src, k) → decodeRecord data = k →
    exec (.write src 469762048 1 [data]) s = exec c s) ∧
  ∀ (s : State) (src : Src) (b n : Nat), b < 67108864 →
    exec (.read src (469762048 + b) n) s = exec (.controlWindowRead src b n) s

/-! ## Acceptance -/

/-- A READ or WRITE of windows 0..6 is refused with the status of the first of checks 2 to 9 that holds; it takes no table
entry and changes no state but the status it receives (R24; R1, R3, R6, R25, R26). -/
def Obligations.AcceptanceChecksInOrder : Prop :=
  ∀ (s : State) (src : Src) (k : Kind) (lba n : Nat) (data : List Block) (st : Status),
    s.powered = true → lba / 67108864 ≠ 7 → firstHolding (acceptanceChecks s src k lba n) = some st →
    exec (blockCommand src lba n data k) s = .next (s.onlyStatus src st)

/-- A READ or WRITE of windows 0..6 that no check refuses takes the youngest place of the request table, with the class and
the level of its window (R4), the active generation and its deadline (R23, R26, R27), and is counted (R138).  No other request
changes what it was given at its acceptance, and the map, the settings, the control unit and the platter table stay. -/
def Obligations.AcceptedRequestJoinsTheTable : Prop :=
  ∀ (s : State) (src : Src) (k : Kind) (lba n : Nat) (data : List Block),
    s.powered = true → lba / 67108864 ≠ 7 → firstHolding (acceptanceChecks s src k lba n) = none →
    let w := s.map.window (lba / 67108864)
    let fixedPart := fun q : Request =>
      (q.initiator, q.tag, q.kind, q.window, q.feeClass, q.level, q.start, q.length, q.generation, q.deadline)
    ∃ t, exec (blockCommand src lba n data k) s = .next t ∧
      t.jb.table.map fixedPart = s.jb.table.map fixedPart ++
        [(src.initiator, src.tag, k, lba / 67108864, w.feeClass,
          if k = .write then .write else if w.express then .express else if w.feeClass = 0 then .staff else .counter,
          lba % 67108864, n, s.fee.generation,
          if s.settings.requestLimit = 0 then none else some (s.now + 1000 * s.settings.requestLimit))] ∧
      t.fee = { s.fee with activeCount := s.fee.activeCount + 1 } ∧
      t.map = s.map ∧ t.settings = s.settings ∧ t.control = s.control ∧ t.jb.platters = s.jb.platters ∧
      (k = .read → t.jb.surfaces = s.jb.surfaces)

/-- An extent is divided where a boundary between map units falls inside it: one segment or two, each wholly on one map unit,
their blocks together the blocks of the extent in order, and segment 1 beginning at a boundary (R28; R2).  Each segment of an
accepted request carries the resolution of its unit (R14).  A unit resolves by the first case of R13 that applies: map enable
off, the default type; a piece of surface 0 or 1 with fixed enable on, its fixed range; valid variable ranges covering the
surface, the most restrictive of their types in the order VOID, SEALED, DIRECT, RETAIN, GATHER; else the default type; and
GATHER on surface 0 or 1 is SEALED.  Its routes come from the same range, in the third case the lowest-numbered one of the type
that won, and are PRIMARY in the first and last, while routing enable is off, and for a surface that is no valid pair's primary
(R12, R14).  The mirror surface is that of a valid pair whose primary the surface is, and absent without one (R14). -/
def Obligations.DivisionMeetsMapUnits : Prop :=
  (∀ start n : Nat, 1 ≤ n → n ≤ 1024 → start + n ≤ 50331648 →
    let segs := divide start n
    (segs.length = 1 ∨ segs.length = 2) ∧
    (segs.flatMap fun x => (List.range x.2.2).map fun k => x.1 * 262144 + x.2.1 + k) =
      (List.range n).map (fun k => start + k) ∧
    (∀ x ∈ segs, 1 ≤ x.2.2 ∧ x.1 ≤ 191 ∧ x.2.1 + x.2.2 ≤ 262144 ∧
      (x.1 < 2 → x.2.1 / 16384 = (x.2.1 + x.2.2 - 1) / 16384)) ∧
    ∀ x ∈ segs.drop 1, x.2.1 = 0 ∨ (x.1 < 2 ∧ x.2.1 % 16384 = 0)) ∧
  (∀ (s : State) (src : Src) (k : Kind) (lba n : Nat) (data : List Block),
    s.powered = true → lba / 67108864 ≠ 7 → firstHolding (acceptanceChecks s src k lba n) = none →
    ∃ t q, exec (blockCommand src lba n data k) s = .next t ∧ t.jb.table.getLast? = some q ∧
      (q.segments.map fun g =>
        (g.surface, g.first, g.count, (⟨g.htype, g.readRoute, g.writeRoute, g.mirror⟩ : Resolution))) =
      (divide (lba % 67108864) n).map fun x => (x.1, x.2.1, x.2.2, s.map.resolve x.1 x.2.1)) ∧
  ∀ (m : VolumeMap) (n b : Nat), n ≤ 191 → b < 262144 →
    let place (ty : HType) : Nat := [HType.void, .sealed, .direct, .retain, .gather].idxOf ty
    let covers (k : Fin 16) : Prop := m.vars[k].valid = true ∧ m.vars[k].first ≤ n ∧ n ≤ m.vars[k].last
    let wins (k : Fin 16) : Prop := covers k ∧ ∀ i, covers i →
      place m.vars[k].htype < place m.vars[i].htype ∨ (m.vars[k].htype = m.vars[i].htype ∧ k ≤ i)
    let pairOf (k : Fin 16) : Prop := m.pairs[k].valid = true ∧ m.pairs[k].primary = n
    let u := m.resolve n b
    let resolves (ty : HType) (read : Side) (write : WriteRoute) : Prop :=
      u.htype = (if n < 2 ∧ ty = .gather then .sealed else ty) ∧
      (m.control.routing = true → (∃ k, pairOf k) → u.readRoute = read ∧ u.writeRoute = write) ∧
      (m.control.routing = false ∨ (∀ k, ¬ pairOf k) → u.readRoute = .primary ∧ u.writeRoute = .primary)
    (m.control.mapEnable = false → resolves m.control.defaultType .primary .primary) ∧
    (m.control.mapEnable = true →
      (n < 2 → m.control.fixedEnable = true → ∀ k : Fin 32, k.val = 16 * n + b / 16384 →
        resolves m.fixed[k].htype m.fixed[k].readRoute m.fixed[k].writeRoute) ∧
      (2 ≤ n ∨ m.control.fixedEnable = false →
        (∀ k, wins k → resolves m.vars[k].htype m.vars[k].readRoute m.vars[k].writeRoute) ∧
        ((∀ k, ¬ covers k) → resolves m.control.defaultType .primary .primary))) ∧
    ((∀ k, ¬ pairOf k) → u.mirror = none) ∧ ((∃ k, pairOf k) → ∃ k, pairOf k ∧ u.mirror = some m.pairs[k].mirror)

/-- A READ of one segment that lies wholly in buffer memory is served and complete at its acceptance: its blocks come from the
gather lines or the retain lines that hold them, none is billable, and the retain lines become the most recently used (R30,
R31, R94, R97, R102). -/
def Obligations.RamReadIsServedAtOnce : Prop :=
  ∀ (s : State) (src : Src) (lba n surface first : Nat),
    s.powered = true → lba / 67108864 ≠ 7 → firstHolding (acceptanceChecks s src .read lba n) = none →
    divide (lba % 67108864) n = [(surface, first, n)] →
    let lines := (List.range ((first + n - 1) / 16 + 1 - first / 16)).map fun k => first / 16 + k
    let ty := (s.map.resolve surface first).htype
    let gather : Prop := ty = .gather ∧ (s.jb.surface surface).sealMark ≤ first ∧
      first + n ≤ (s.jb.surface surface).appendPoint
    let retain : Prop := ty = .retain ∧ ∀ k ∈ lines, (retainFind s.jb.retain surface k).isSome = true
    gather ∨ retain →
    ∃ q : Request,
      exec (.read src lba n) s = .next { s with
        fee := { s.fee with activeCount := s.fee.activeCount + 1 }
        jb := { s.jb with
          table := s.jb.table ++ [q]
          retain := if ty = .retain then lines.foldl (fun c k => retainTouch c surface k) s.jb.retain else s.jb.retain
          bus := [.data src.initiator src.tag lba ((List.range n).map fun k =>
            if ty = .gather then s.jb.stagedBlock surface (first + k)
            else cachedBlock s.jb.retain surface (first + k))] } } ∧
      q.initiator = src.initiator ∧ q.tag = src.tag ∧ q.state = .completing ∧ q.status = .good ∧ q.delivered = n ∧
      q.billable = 0 ∧ q.staged = if ty = .gather then n else 0

/-- A WRITE with GATHER segments that finds the staging reservation queue empty is examined at once.  The first of the checks
of R111 that refuses ends it with its status; with inventory running (R191, log entry 21), a line it touches frozen or too few
FREE lines it waits at the head, and behind another head it joins the queue (R109 to R112).  Otherwise it is reserved: the data
of each GATHER segment stands in gather lines, blocks staged before and not covered keep theirs, the append points move (R113),
the data of segment 0 being fetched first where both are GATHER (log entry 12), and its GATHER segments are DONE GOOD (R32,
R36), or in battery-low mode stay QUEUED to await sealing, every line they touch being due (R126). -/
def Obligations.ReservedIntakeIsStaged : Prop :=
  ∀ (s : State) (src : Src) (lba n : Nat) (data : List Block),
    s.powered = true → lba / 67108864 ≠ 7 → firstHolding (acceptanceChecks s src .write lba n) = none → data.length = n →
    let start := lba % 67108864
    let segs := divide start n
    let intake := segs.filter fun x => decide ((s.map.resolve x.1 x.2.1).htype = .gather)
    let mine := fun x : Nat × Nat × Nat => s.jb.surface x.1
    let lines := fun x : Nat × Nat × Nat =>
      (List.range ((x.2.1 + x.2.2 - 1) / 16 + 1 - x.2.1 / 16)).map fun k => x.2.1 / 16 + k
    let refusals : List (Bool × Status) :=
      [(intake.any fun x => (mine x).condition = .unknown || x.2.1 < (mine x).sealMark, .protect),
        (intake.any fun x => (mine x).appendPoint < x.2.1, .gap),
        (intake.any fun x => (mine x).quarantine.isSome, .quarantined),
        (decide (s.jb.picker.inventory = none) && intake.any fun x =>
          !(s.jb.platter (x.1 / 2)).present || (s.jb.platter (x.1 / 2)).held, .unavailable)]
    let waits : Prop := s.jb.picker.inventory ≠ none ∨
      (∃ x ∈ intake, ∃ k ∈ lines x, ∃ l, s.jb.line x.1 k = some l ∧ (l.state = .flushing ∨ l.state = .verifying)) ∨
      32 - s.jb.lines.length < (intake.map fun x => ((lines x).filter fun k => (s.jb.line x.1 k).isNone).length).sum
    let alone : Prop := ∀ q ∈ s.jb.table, q.state ≠ .stagingWait
    let joined (q : Request) : State := { s with
      fee := { s.fee with activeCount := s.fee.activeCount + 1 }
      jb := { s.jb with table := s.jb.table ++ [q], bus := [] } }
    intake ≠ [] → (∀ x ∈ intake, 2 ≤ x.1) →
    (∀ st, alone → firstHolding refusals = some st → ∃ q : Request,
      exec (.write src lba n data) s = .next (joined q) ∧ q.initiator = src.initiator ∧ q.tag = src.tag ∧
      q.state = .completing ∧ q.status = st ∧ ∀ g ∈ q.segments, g.state = .done ∧ g.status = st) ∧
    (¬ alone ∨ (firstHolding refusals = none ∧ waits) → ∃ q : Request,
      exec (.write src lba n data) s = .next (joined q) ∧ q.initiator = src.initiator ∧ q.tag = src.tag ∧
      q.state = .stagingWait ∧ q.stagingExpiry = some (s.now + 1000 * s.settings.stagingWait) ∧
      ∀ g ∈ q.segments, g.state = .queued) ∧
    (alone → firstHolding refusals = none → ¬ waits → ∃ (t : State) (q : Request),
      exec (.write src lba n data) s = .next t ∧ t.jb.request src.initiator src.tag = some q ∧
      (s.batteryLow = false → ∀ (k : Nat) (g : Segment), q.segments[k]? = some g → g.htype = .gather →
        g.state = .done ∧ g.status = .good) ∧
      (s.batteryLow = true → q.state = .active ∧
        (∀ (k : Nat) (g : Segment), q.segments[k]? = some g → g.htype = .gather → g.state = .queued) ∧
        ∀ x ∈ intake, ∀ k ∈ lines x, (∀ l, s.jb.line x.1 k = some l → l.state ≠ .pinned) →
          ∃ l, t.jb.line x.1 k = some l ∧ l.due.isSome = true) ∧
      (intake = segs → t.jb.bus = segs.map (fun x =>
          .fetch src.initiator src.tag (lba / 67108864 * 67108864 + x.1 * 262144 + x.2.1) x.2.2) ∧
        (s.batteryLow = false → q.state = .completing ∧ q.status = .good)) ∧
      (∀ x ∈ intake, t.jb.surface x.1 = { mine x with appendPoint := max (mine x).appendPoint (x.2.1 + x.2.2) }) ∧
      (∀ m, (∀ x ∈ intake, x.1 ≠ m) → t.jb.surface m = s.jb.surface m) ∧
      (∀ x ∈ intake, ∀ k < x.2.2,
        t.jb.stagedBlock x.1 (x.2.1 + k) = data.getD (x.1 * 262144 + x.2.1 + k - start) 0) ∧
      (∀ m b l, s.jb.line m (b / 16) = some l → l.lo ≤ b → b < l.hi →
        (∀ x ∈ intake, x.1 ≠ m ∨ b < x.2.1 ∨ x.2.1 + x.2.2 ≤ b) → t.jb.stagedBlock m b = s.jb.stagedBlock m b) ∧
      t.jb.retain = s.jb.retain ∧ t.jb.platters = s.jb.platters)

/-! ## Completion, deadlines and the front bus reset -/

/-- The front port sends the status of a COMPLETING request with no segment IN SERVICE; the request leaves the table and its
generation's count, the last of the previous generation releasing a deferred update.  The fee unit does nothing for a WRITE
or a READ of class 0 (R38, R129, R138, R140).  A send that does not apply changes nothing (log entry 5). -/
def Obligations.StatusSendLeavesTheTable : Prop :=
  ∀ (s : State) (i : Fin 7) (g : Fin 8), s.powered = true →
    (∀ q, s.jb.request i g = some q → q.state = .completing → (∀ x ∈ q.segments, x.state ≠ .inService) →
      (q.kind = .write ∨ q.feeClass = 0) → exec (.statusSend i g) s = .next (s.sent q s.fee)) ∧
    ((∀ q, s.jb.request i g = some q → q.state ≠ .completing ∨ ∃ x ∈ q.segments, x.state = .inService) →
      exec (.statusSend i g) s = .next s.fresh)

/-- At the send of a READ of class 1..7 the fee unit charges a GOOD copy by the arithmetic of R133, in the tariff of the
request's generation (R132), to the tally of its initiator and class (R135), and counts its staged blocks; a copy of no page
is not charged; a READ that did not end GOOD is counted as failed and bills nothing (R129, R136).  All of the fee unit else
changes only as the request leaves the table. -/
def Obligations.CopyFeeIsTallied : Prop :=
  ∀ (s : State) (q : Request) (c : Fin 7), s.powered = true → s.jb.request q.initiator q.tag = some q →
    q.state = .completing → (∀ x ∈ q.segments, x.state ≠ .inService) → q.kind = .read → q.feeClass = c.val + 1 →
    let tariff := if q.generation = s.fee.generation then s.fee.active else s.fee.previous
    let e := tariff.classes[c]
    let pages := (q.billable + tariff.page - 1) / tariff.page
    let groups := (pages - e.n + e.g - 1) / e.g
    let gross := e.f + groups * e.k
    let surcharged := (gross * (100 + e.s) + 50) / 100
    let fee := if e.c = 0 then surcharged else min surcharged e.c
    let old := s.fee.tallies[q.initiator][c]
    let side := s.fee.sides[q.initiator]
    exec (.statusSend q.initiator q.tag) s = .next (s.sent q
      (if q.status = .good then
        { s.fee with
          tallies := if pages = 0 then s.fee.tallies
            else s.fee.tallies.set q.initiator (s.fee.tallies[q.initiator].set c (old.after fee pages))
          sides := s.fee.sides.set q.initiator { side with staged := min 4294967295 (side.staged + q.staged) } }
      else
        { s.fee with
          sides := s.fee.sides.set q.initiator { side with failed := min 4294967295 (side.failed + 1) } }))

/-- A front bus reset empties the request table and both counts, lets a deferred update take effect, withdraws every pending
preemption and discards every parked context of a request (R42, R65, R141).  The map, the settings, the control unit, the
surface records, the platter table, the gather lines with their data and the mode stay (R43); where no drive holds a request
segment, nothing else changes at all.  A segment a drive was moving blocks for runs on without its request to the burst end or
the verify end, where it stops with no delivery and no status (R42, R71, R72): the drive is READY and dwells, and the lines of
blocks a RETAIN write's primary pass has written, since a failed verify began it again (log entry 23), are discarded (R98); a
read leaves all but the retain cache as it was.  These ends are stated for a drive with nothing else to do, with dispatch
enable off or no work waiting. -/
def Obligations.FrontBusResetDropsEveryRequest : Prop :=
  (∀ (s : State) (d : Fin 4) (w : Work) (g : Segment), s.powered = true →
    let x := s.jb.drive d
    x.work = some w → w.dropped = some g → x.parked = none → x.preempt = none → x.offlineFlag = false →
    (∀ o ∈ s.jb.orders, o.drive ≠ d) → 0 < s.settings.dwell → s.settings.dispatch = false ∨ s.jb.NoWork →
    let stops (c : Instr) (cache : List RetainLine) : Prop := exec c s = .next (s.withJb fun j => { (j.onDrive d fun x =>
        { x with
          state := .ready, work := none, pass := none, left := 0, lastUse := s.now
          dwell := some (s.now + s.settings.dwell) }) with
      retain := cache })
    (x.state = .transfer → x.pass = none → ∀ media, ∃ cache, stops (.burstEnd d media) cache ∧
      (g.htype ≠ .retain → (∀ b, .cached b ∉ w.reached) → cache = s.jb.retain)) ∧
    ∀ p, x.pass = some p →
      let discarded (hi : Nat) : List RetainLine :=
        if g.htype = .retain ∧ p.side = .primary then retainDiscard s.jb.retain g.surface g.first hi else s.jb.retain
      (x.state = .transfer → ∀ media,
        stops (.burstEnd d media) (discarded (g.first + g.count - (x.left - min 64 x.left)))) ∧
      (x.state = .verify → ∀ passed, stops (.verifyEnd d passed) (discarded (g.first + g.count)))) ∧
  ∀ s : State, s.powered = true → ∃ t, exec .frontBusReset s = .next t ∧
    t.jb.table = [] ∧ t.fee = s.fee.cleared ∧
    t.map = s.map ∧ t.settings = s.settings ∧ t.control = s.control ∧ t.batteryLow = s.batteryLow ∧
    t.jb.surfaces = s.jb.surfaces ∧ t.jb.platters = s.jb.platters ∧
    (t.jb.lines.map fun l => ({ l with state := .filling } : GatherLine)) =
      s.jb.lines.map (fun l => ({ l with state := .filling } : GatherLine)) ∧
    (∀ d, (t.jb.drive d).preempt = none ∧ ∀ c, (t.jb.drive d).parked = some c → ∀ r, c.ref ≠ .request r) ∧
    ((∀ d, (s.jb.drive d).preempt = none ∧ (∀ c r, (s.jb.drive d).parked = some c → c.ref ≠ .request r) ∧
        ∀ w r, (s.jb.drive d).work = some w → w.ref ≠ .request r) →
      t = { s with fee := s.fee.cleared, jb := { s.jb with table := [], bus := [] } })

/-- A deadline ends an ACTIVE request with TIMEOUT: its QUEUED segments are withdrawn, with the preemptions that name them,
and the ones a drive is moving blocks for run on to their burst end (R37, R39).  A PARKED segment leaves its parked context, and
for one that awaits its exchange the order is dealt with by R83: a QUEUED order is cancelled, one in steps 1 to 3 becomes a
RETURN HOME, one in step 4 ends where the picker stands, and one in steps 5 and 6 runs on, the drive being free of the segment
(R40); these are stated with dispatch enable off, so that no freed drive takes work.  No retain line is discarded there (log
entry 23), and a move broken off in step 4 leaves the picker's mark of that (log entry 17).  A request in STAGING-WAIT ends with
TIMEOUT at its deadline and with STAGING TIMEOUT at its staging wait limit (R41); nothing of the others changes while no other
request becomes the head of the queue. -/
def Obligations.DeadlinesEndRequests : Prop :=
  ∀ (s : State) (q : Request), s.powered = true → s.jb.TableWf → q ∈ s.jb.table →
    let replaced (q' : Request) : State := { s with jb := { s.jb with
      bus := []
      table := s.jb.table.map fun x => if x.initiator = q.initiator && x.tag = q.tag then q' else x } }
    let ended (st : Status) : Request := { q with
      state := .completing, status := st
      segments := q.segments.map fun g => if g.state = .done then g else { g with state := .done, status := st } }
    let stopped (g : Segment) : Segment :=
      { g with state := .done, status := .timeout, served := 0, billable := 0, staged := 0, kept := [] }
    (q.state = .active → q.deadline ≠ none →
      (∀ k g, q.segments[k]? = some g → g.state = .done ∨ g.state = .queued ∨
        (g.state = .inService ∧ ∃ d, s.jb.holderOf ⟨q.initiator, q.tag, k⟩ = some d ∧
          ((s.jb.drive d).state = .transfer ∨ (s.jb.drive d).state = .verify))) →
      let t := replaced { q with
        state := .completing, status := .timeout
        segments := q.segments.map fun g => if g.state = .queued then stopped g else g }
      exec (.requestDeadlineExpiry q.initiator q.tag) s = .next { t with jb := { t.jb with
        drives := s.jb.drives.map fun x =>
          if x.preempt.any fun r => r.initiator = q.initiator && r.tag = q.tag &&
              (q.segments[r.index]?).any fun g => g.state = .queued then { x with preempt := none }
          else x } }) ∧
    (∀ k g, q.state = .active → q.deadline ≠ none → q.segments[k]? = some g →
      (∀ i x, q.segments[i]? = some x → i ≠ k → x.state = .done) → s.settings.dispatch = false →
      let t := replaced { q with state := .completing, status := .timeout, segments := q.segments.modify k stopped }
      let answers (f : Jukebox → Jukebox) : Prop :=
        exec (.requestDeadlineExpiry q.initiator q.tag) s = .next { t with jb := f t.jb }
      (∀ d c, g.state = .parked → s.jb.parkedOn ⟨q.initiator, q.tag, k⟩ = some (d, c) →
        answers fun j => j.onDrive d fun x => { x with parked := none }) ∧
      ∀ d o, g.state = .inService → s.jb.holderOf ⟨q.initiator, q.tag, k⟩ = some d → (s.jb.drive d).state ≠ .transfer →
        (s.jb.drive d).state ≠ .verify → s.jb.OrdersWf → s.jb.orderOf d = some o → o.kind ≠ .returnHome →
        (s.jb.drive d).parked = none → (s.jb.drive d).offlineFlag = false →
        let free (x : Drive) : Drive := { x with work := none, pass := none, left := 0 }
        let others := s.jb.orders.filter fun x => x.drive ≠ d
        let home := s.jb.orders.map fun x =>
          if x.drive = d then
            { x with kind := .returnHome, incoming := none, wanted := none, express := false, cancelled := true }
          else x
        let stands := s.jb.picker.state = .busy ∧ s.jb.picker.recovering = false
        (o.state = .queued → 0 < s.settings.dwell → answers fun j => { (j.onDrive d fun x =>
            { free x with dwell := if x.state = .ready then some (s.now + s.settings.dwell) else x.dwell }) with
          orders := others }) ∧
        (o.state ≠ .queued → o.step ≤ 3 → answers fun j => { j.onDrive d free with orders := home }) ∧
        (o.state ≠ .queued → o.step = 4 → others = [] → answers fun j => { j.onDrive d free with
          orders := []
          picker := { j.picker with
            midway := true, state := if stands then .parked else j.picker.state
            stepLimit := if stands then none else j.picker.stepLimit } }) ∧
        (o.state ≠ .queued → 5 ≤ o.step → answers fun j => j.onDrive d free)) ∧
    (q.state = .stagingWait →
      (∀ h, s.jb.stagingQueue.head? = some h → h ≠ q ∨ s.jb.stagingQueue.length = 1) →
      (q.deadline ≠ none → exec (.requestDeadlineExpiry q.initiator q.tag) s = .next (replaced (ended .timeout))) ∧
      exec (.stagingWaitLimitExpiry q.initiator q.tag) s = .next (replaced (ended .stagingTimeout))) ∧
    (q.state = .completing →
      exec (.requestDeadlineExpiry q.initiator q.tag) s = .next s.fresh ∧
      exec (.stagingWaitLimitExpiry q.initiator q.tag) s = .next s.fresh)

/-! ## Filing commands and due lines -/

/-- FLUSH ALL makes every FILLING line due and its outcome is DONE; an age limit makes due its own line, when that is FILLING.
A line that is due keeps its due moment (R115).  A surface that is KNOWN and not quarantined, whose lowest line is FILLING
and due, then has a flush segment, with the routes resolved at this event (R116).  No line loses data and no mark moves. -/
def Obligations.DueLinesAreFlushed : Prop :=
  ∀ (s : State), s.powered = true →
    let dueNow (l : GatherLine) : GatherLine := if l.due.isSome then l else { l with due := some s.now }
    (∀ src : Src, s.MayCommand src → ∃ t, exec (.flushAll src) s = .next t ∧
      t.control.responses[src.initiator].outcome = .done ∧ t.map = s.map ∧ t.settings = s.settings ∧ t.fee = s.fee ∧
      t.jb.surfaces = s.jb.surfaces ∧ t.jb.platters = s.jb.platters ∧ t.jb.retain = s.jb.retain ∧
      t.jb.lines.map GatherLine.contents =
        s.jb.lines.map (fun l => (if l.state = .filling then dueNow l else l).contents) ∧
      ∀ n l, (s.jb.linesOf n).head? = some l → l.state = .filling → (s.jb.surface n).condition = .known →
        (s.jb.surface n).quarantine = none → (t.jb.flush n).isSome = true) ∧
    ∀ n k : Nat, ∃ t, exec (.lineAgeLimitExpiry n k) s = .next t ∧
      t.jb.surfaces = s.jb.surfaces ∧ t.jb.platters = s.jb.platters ∧ t.jb.retain = s.jb.retain ∧
      t.jb.lines.map GatherLine.contents =
        s.jb.lines.map (fun l =>
          (if l.surface = n ∧ l.index = k ∧ l.state = .filling then dueNow l else l).contents) ∧
      (s.settings.dispatch = false → ∀ l, (s.jb.linesOf n).head? = some l → l.index = k → l.state = .filling →
        (s.jb.surface n).condition = .known → (s.jb.surface n).quarantine = none → s.jb.flush n = none →
        t.jb.flush n = some ⟨n, k, (s.map.resolve n 0).writeRoute, (s.map.resolve n 0).mirror, l.due.getD s.now, .queued,
          none, false⟩)

/-- RELEASE QUARANTINE removes the quarantine record: RETRY makes the pinned line FILLING and due with fresh attempts and its
flush segment is made (R123); DISCARD frees every line of the surface and lowers the append point to the seal mark (R124).
A surface above 191 is refused BAD VALUE, one without a record NOT QUARANTINED.  The clauses on the whole state are for no
request in the staging reservation queue, and for RETRY with dispatch enable off. -/
def Obligations.ReleaseQuarantine : Prop :=
  ∀ (s : State) (src : Src) (b : Byte), s.MayCommand src →
    let n := b.toNat
    let r := s.jb.surface n
    (191 < n → ∀ c ∈ [Instr.releaseQuarantineRetry src b, .releaseQuarantineDiscard src b],
      exec c s = .next (s.answered src 0x30 .refused .badValue)) ∧
    (n ≤ 191 → r.quarantine = none → ∀ c ∈ [Instr.releaseQuarantineRetry src b, .releaseQuarantineDiscard src b],
      exec c s = .next (s.answered src 0x30 .refused .notQuarantined)) ∧
    (∀ q l, n ≤ 191 → r.quarantine = some q → s.jb.NoIntake → s.settings.dispatch = false → r.condition = .known →
      (s.jb.linesOf n).head? = some l → l.index = q.line → s.jb.flush n = none →
      exec (.releaseQuarantineRetry src b) s = .next (s.jbDone src 0x30 fun j => { (j.onSurface n fun x =>
          { x with quarantine := none }) with
        lines := j.lines.map fun x =>
          if x.surface = n && x.index = q.line then { x with state := .filling, due := some s.now, attempts := 0 } else x
        flushes := insertFlush ⟨n, q.line, (s.map.resolve n 0).writeRoute, (s.map.resolve n 0).mirror, s.now, .queued,
          none, false⟩ j.flushes })) ∧
    ∀ q, n ≤ 191 → r.quarantine = some q → s.jb.NoIntake →
      exec (.releaseQuarantineDiscard src b) s = .next (s.jbDone src 0x30 fun j => { (j.onSurface n fun x =>
          { x with appendPoint := x.sealMark, quarantine := none }) with
        lines := j.lines.filter fun x => x.surface != n })

/-- RESTORE SEAL sets both marks of an UNKNOWN surface to the mark given, clamped to 262,144, and makes it KNOWN; a KNOWN
surface is refused STATE and a number above 191 BAD VALUE (R188). -/
def Obligations.RestoreSealMakesKnown : Prop :=
  ∀ (s : State) (src : Src) (b : Byte) (mark : BitVec 24), s.MayCommand src →
    exec (.restoreSeal src b mark) s = .next
      (if 191 < b.toNat then s.answered src 0x31 .refused .badValue
      else if (s.jb.surface b.toNat).condition = .known then s.answered src 0x31 .refused .state
      else ({ s with jb := s.jb.onSurface b.toNat fun r =>
          { r with
            sealMark := min 262144 mark.toNat, appendPoint := min 262144 mark.toNat, condition := .known } } : State).answered
          src 0x31 (if 262144 < mark.toNat then .clamped else .done) .none)

/-! ## Drive commands -/

/-- CLEAR DRIVE: a number above 3 is refused BAD VALUE; a drive not in FAULT, an ORPHAN, one with an eject attempt running or
an order naming it is refused STATE; a faulted drive with no platter becomes EMPTY, or OFFLINE when its offline flag is set;
a held platter gets one more eject attempt (R157, R165).  The EMPTY case is stated for a jukebox with no work waiting. -/
def Obligations.ClearDriveByWhatItHolds : Prop :=
  ∀ (s : State) (src : Src), s.MayCommand src →
    (∀ b : Byte, 4 ≤ b.toNat → exec (.clearDrive src b) s = .next (s.answered src 0x24 .refused .badValue)) ∧
    ∀ d : Fin 4,
      let x := s.jb.drive d
      let named := ∃ o ∈ s.jb.orders, o.drive = d
      (x.state ≠ .fault ∨ x.reason = some .orphan ∨ x.ejecting = true ∨ named →
        exec (.clearDrive src (driveByte d)) s = .next (s.answered src 0x24 .refused .state)) ∧
      (x.state = .fault → x.reason ≠ some .orphan → x.ejecting = false → ¬ named →
        (x.platter = none → x.work = none → x.parked = none → s.jb.NoWork →
          exec (.clearDrive src (driveByte d)) s = .next (s.jbDone src 0x24 fun j => j.onDrive d fun x =>
            { x with state := if x.offlineFlag then .offline else .empty, reason := none, offlineFlag := false })) ∧
        ∀ p, x.platter = some p → (s.jb.platter p).held = true →
          exec (.clearDrive src (driveByte d)) s = .next (s.jbDone src 0x24 fun j => j.onDrive d fun x =>
            { x with ejecting := true, clearing := true, limit := some (s.now + 10000) }))

/-- TAKE OFFLINE and RETURN DRIVE (R74, R164): a number above 3 is refused BAD VALUE.  TAKE OFFLINE is refused STATE for a
drive OFFLINE, with its flag set or in FAULT; otherwise the dwell and the pending preemption end, the EXPRESS segment of which
is considered once more for another victim (R61).  A drive with a segment goes on with it under its flag, and so does one that
is LOADING or UNLOADING, that inventory will unload, or that is READY and named by an order; an EMPTY drive is OFFLINE at once,
but for one that still waits for the RETURN HOME of a cancellation or of R74 or for its incoming platter (log entries 16 and 26;
the marks of a RETURN HOME are log entry 16's too); and a READY drive without a segment places a RETURN HOME, which shows step 1
while QUEUED (log entry 36) and, started at once, runs its move to the drive under the step limit unless the picker stands there
(log entry 17).  RETURN DRIVE is refused STATE for a drive that is not OFFLINE and makes an OFFLINE drive EMPTY. -/
def Obligations.OfflineAndReturn : Prop :=
  ∀ (s : State) (src : Src), s.MayCommand src →
    (∀ b : Byte, 4 ≤ b.toNat → ∀ c ∈ [Instr.takeOffline src b, .returnDrive src b],
      exec c s = .next (s.answered src 0x26 .refused .badValue)) ∧
    ∀ d : Fin 4,
      let x := s.jb.drive d
      let ok := x.state ≠ .offline ∧ x.offlineFlag = false ∧ x.state ≠ .fault
      let named := ∃ o ∈ s.jb.orders, o.drive = d
      let waits := ∃ o, s.jb.orderOf d = some o ∧ (o.cancelled = true ∨ o.forOffline = true ∨ o.kind ≠ .returnHome)
      let flagged (x : Drive) : Drive := { x with offlineFlag := true, dwell := none, preempt := none }
      let takes (f : Jukebox → Jukebox) : Prop := exec (.takeOffline src (driveByte d)) s = .next (s.jbDone src 0x26 f)
      (¬ ok → exec (.takeOffline src (driveByte d)) s = .next (s.answered src 0x26 .refused .state)) ∧
      (ok → ∃ t, exec (.takeOffline src (driveByte d)) s = .next t ∧ t.control.responses[src.initiator].outcome = .done ∧
        (t.jb.drive d).preempt = none ∧ (t.jb.drive d).dwell = none ∧
        ((t.jb.drive d).offlineFlag = true ∨ (t.jb.drive d).state = .offline)) ∧
      (ok → x.preempt = none ∨ s.settings.preempt = false →
        (x.work ≠ none ∨ x.parked ≠ none ∨ (x.state ≠ .empty ∧ x.state ≠ .ready) ∨ (x.state = .empty ∧ waits) ∨
            (x.state = .ready ∧ (named ∨ s.jb.picker.inventory ≠ none)) →
          takes fun j => j.onDrive d flagged) ∧
        (x.work = none → x.parked = none → ¬ waits → x.state = .empty →
          takes fun j => j.onDrive d fun x => { x with state := .offline, dwell := none, preempt := none }) ∧
        (∀ p, x.work = none → x.parked = none → ¬ named → x.state = .ready → x.platter = some p →
          s.jb.picker.inventory = none →
          let home (st : OrderState) : Order := ⟨d, .returnHome, some p, none, none, false, 1, st, true, false⟩
          (s.jb.picker.state ≠ .parked → takes fun j => { j.onDrive d flagged with orders := j.orders ++ [home .queued] }) ∧
          (s.jb.picker.state = .parked → s.jb.orders = [] → x.ejected = false → takes fun j =>
            { (j.onDrive d fun x => { flagged x with state := .unloading, mounted := none, limit := some (s.now + 10000) }) with
              orders := [home .running]
              picker := { j.picker with
                state := .busy
                stepLimit := if j.picker.position = some (.drive d) ∧ j.picker.midway = false then none
                  else some (s.now + 15000) } }))) ∧
      (∀ r it v, ok → x.work ≠ none → x.preempt = some r → s.jb.itemOf (.request r) = some it → it.level = .express →
        s.settings.preempt = true → s.settings.dispatch = true → s.settings.enables .express = true →
        v ≠ d → s.jb.victim it.target v = true →
        (∀ y, y ≠ d → s.jb.victim it.target y = true → (s.jb.drive y).left < (s.jb.drive v).left ∨
          ((s.jb.drive y).left = (s.jb.drive v).left ∧ v ≤ y)) →
        takes fun j => (j.onDrive d flagged).onDrive v fun x => { x with preempt := some r }) ∧
      (x.state ≠ .offline → exec (.returnDrive src (driveByte d)) s = .next (s.answered src 0x26 .refused .state)) ∧
      (x.state = .offline → x.work = none → x.parked = none → ¬ named → s.jb.NoWork →
        exec (.returnDrive src (driveByte d)) s = .next (s.jbDone src 0x26 fun j =>
          j.onDrive d fun x => { x with state := .empty, offlineFlag := false }))

/-! ## Door, picker halts and recovery -/

/-- A door opening halts a picker that is BUSY, PARKED or in INVENTORY, with its running order, and keeps one that is HALTED
or in FAULT; a closing begins the settle of 3,000 ms; at its end the door is CLOSED and a HALTED picker awaits RESUME PICKER
while auto-resume is off (R86 to R88).  A closing of a door that is not open and a settle end with no settle running change
nothing (log entry 5). -/
def Obligations.DoorHaltsThePicker : Prop :=
  ∀ s : State, s.powered = true →
    let p := s.jb.picker
    (p.state = .fault → exec .doorOpening s = .next (s.withJb fun j =>
      { j with picker := { p with door := .opened, settleEnd := none } })) ∧
    (p.state = .halted → exec .doorOpening s = .next (s.withJb fun j =>
      { j with picker := { p with
        door := .opened, settleEnd := none, halt := p.halt.map fun h => { h with awaiting := false } } })) ∧
    (p.state ≠ .fault → p.state ≠ .halted → exec .doorOpening s = .next (s.withJb fun j =>
      { j with
        orders := haltedOrders j.orders
        picker := { p with
          door := .opened, settleEnd := none, state := .halted, halt := some ⟨p.state, false⟩, stepLimit := none } })) ∧
    (p.door = .opened → exec .doorClosing s = .next (s.withJb fun j =>
      { j with picker := { p with door := .settling, settleEnd := some (s.now + 3000) } })) ∧
    (p.door ≠ .opened → exec .doorClosing s = .next s.fresh) ∧
    (p.door ≠ .settling → exec .settleEnd s = .next s.fresh) ∧
    (p.door = .settling → p.state ≠ .halted → exec .settleEnd s = .next (s.withJb fun j =>
      { j with picker := { p with door := .closed, settleEnd := none } })) ∧
    (p.door = .settling → p.state = .halted → s.settings.autoResume = false → exec .settleEnd s = .next (s.withJb fun j =>
      { j with picker := { p with
        door := .closed, settleEnd := none, halt := p.halt.map fun h => { h with awaiting := true } } }))

/-- RESUME PICKER is refused DOOR OPEN unless the door is CLOSED, and STATE unless the picker is HALTED and awaits it; then,
as at the end of a settle with auto-resume on, the picker returns to the state it had: an interrupted step or check begins
again with a full step limit (R88, R82).  Step 1 sets off for the drive again; where the picker stands there it waits with no
limit, or goes on with step 2 when the platter is at the mouth (R78; the mark of a broken move: log entry 17). -/
def Obligations.ResumptionRestartsTheStep : Prop :=
  ∀ (s : State) (src : Src), s.MayCommand src →
    let p := s.jb.picker
    let cmd := exec (.resumePicker src) s
    (p.door ≠ .closed → cmd = .next (s.answered src 0x23 .refused .doorOpen)) ∧
    (p.door = .closed → (p.state ≠ .halted ∨ ∀ h, p.halt = some h → h.awaiting = false) →
      cmd = .next (s.answered src 0x23 .refused .state)) ∧
    ∀ h, p.state = .halted → p.halt = some h →
      let restarted (f : Jukebox → Jukebox) : Prop :=
        (p.door = .closed → h.awaiting = true → cmd = .next (s.jbDone src 0x23 f)) ∧
        (p.door = .settling → s.settings.autoResume = true → exec .settleEnd s = .next (s.withJb fun j =>
          f { j with picker := { j.picker with door := .closed, settleEnd := none } }))
      (h.back = .parked → p.recovering = false → s.jb.orders = [] → restarted fun j =>
        { j with picker := { j.picker with state := .parked, halt := none, stepLimit := none } }) ∧
      (∀ o rest, h.back = .busy → p.recovering = false → s.jb.orders = o :: rest → o.state = .halted → o.step ≠ 1 →
        (∀ x ∈ rest, x.drive ≠ o.drive) → restarted fun j =>
          { j with
            orders := { o with state := .running } :: rest
            picker := { j.picker with state := .busy, halt := none, stepLimit := some (s.now + 15000) } }) ∧
      (∀ o rest, h.back = .busy → p.recovering = false → s.jb.orders = o :: rest → o.state = .halted → o.step = 1 →
        (∀ x ∈ rest, x.drive ≠ o.drive) →
        let stands : Prop := p.position = some (.drive o.drive) ∧ p.midway = false
        let ejected : Prop := (s.jb.drive o.drive).ejected = true
        restarted fun j => { j with
          orders := { o with state := .running, step := if stands ∧ ejected then 2 else 1 } :: rest
          picker := { j.picker with
            state := .busy, halt := none
            stepLimit := if stands ∧ ¬ ejected then none else some (s.now + 15000) } }) ∧
      (h.back = .busy → p.recovering = true → restarted fun j =>
        { j with picker := { j.picker with state := .busy, halt := none, stepLimit := some (s.now + 15000) } }) ∧
      ∀ n, h.back = .inventory → p.inventory = some (.slot n) → restarted fun j =>
        { j with picker := { j.picker with state := .inventory, halt := none, stepLimit := some (s.now + 15000) } }

/-- CLEAR PICKER is refused DOOR OPEN unless the door is CLOSED, STATE unless the picker is in FAULT, and STATE for a gripped
platter whose home slot inventory found occupied; then the gripped platter is the sensor's (the operand of the row: log entry
27), and the picker carries it home in one recovery step, or goes on at once when it grips none.  The step releases the platter
in its home slot, or sends the picker back to FAULT with reason GRIP and, since the recovery step is a move, no position (log
entry 18), still gripping it (R82, R158 to R160).  Where the sensor disagrees with the picker record the platter records stay
(log entry 37).  When recovery ends a HALTED order goes by the table of R160: a RETURN HOME whose platter has gone home ends
(also one halted in step 1 or 2, for which R160 has no row: log entry 35), an EXCHANGE in step 3 goes on with step 4, one whose
incoming platter has gone home becomes an EXCHANGE into the EMPTY drive at step 4, one in step 4 whose incoming platter is
missing ends and hands its segment back, a write with its whole count, its pass to begin again (log entry 24), and any other
begins its step again.  The broken-off move's mark is log entry 17's.  The releases are stated for dispatch enable off or no
work waiting, and the ends of an order for no other order in the queue. -/
def Obligations.ClearPickerRecovers : Prop :=
  ∀ (s : State) (src : Src) (x : Sensor), s.MayCommand src →
    let p := s.jb.picker
    let cmd := exec (.clearPicker src x) s
    let grip : Option Nat := match x with
      | .asRecorded => p.gripped
      | .nothing => none
      | .platter k => some k
    (p.door ≠ .closed → cmd = .next (s.answered src 0x25 .refused .doorOpen)) ∧
    (p.door = .closed → p.state ≠ .fault → cmd = .next (s.answered src 0x25 .refused .state)) ∧
    (p.door = .closed → p.state = .fault →
      (∀ k, grip = some k → k ∈ p.slotTaken → cmd = .next (s.answered src 0x25 .refused .state)) ∧
      (∀ k, grip = some k → k ∉ p.slotTaken →
        cmd = .next (s.jbDone src 0x25 fun j => { j with picker := { p with
          state := .busy, gripped := some k, reason := none, recovering := true
          stepLimit := some (s.now + 15000) } })) ∧
      (grip = none → p.inventory = none → s.jb.orders = [] →
        cmd = .next (s.jbDone src 0x25 fun j => { j with picker := { p with
          state := .parked, gripped := none, reason := none, recovering := false, stepLimit := none } })) ∧
      (∀ o rest, grip = none → p.inventory = none → s.jb.orders = o :: rest → o.state = .halted →
        o.step ∈ [2, 3, 5, 6] → (∀ y ∈ rest, y.drive ≠ o.drive) →
        cmd = .next (s.jbDone src 0x25 fun j => { j with
          orders := { o with state := .running } :: rest
          picker := { p with
            state := .busy, gripped := none, reason := none, recovering := false
            stepLimit := some (s.now + 15000) } })) ∧
      (∀ o rest, grip = none → p.inventory = none → s.jb.orders = o :: rest → o.state = .halted → o.step = 1 →
        (∀ y ∈ rest, y.drive ≠ o.drive) →
        let stands : Prop := p.position = some (.drive o.drive) ∧ p.midway = false
        let ejected : Prop := (s.jb.drive o.drive).ejected = true
        cmd = .next (s.jbDone src 0x25 fun j => { j with
          orders := { o with state := .running, step := if stands ∧ ejected then 2 else 1 } :: rest
          picker := { p with
            state := .busy, gripped := none, reason := none, recovering := false
            stepLimit := if stands ∧ ¬ ejected then none else some (s.now + 15000) } })) ∧
      (∀ o rest k, grip = none → p.inventory = none → s.jb.orders = o :: rest → o.state = .halted → o.step = 4 →
        o.incoming = some k → (∀ y ∈ rest, y.drive ≠ o.drive) →
        ((s.jb.platter k).present = true →
          cmd = .next (s.jbDone src 0x25 fun j => { j with
            orders := { o with state := .running } :: rest
            picker := { p with
              state := .busy, gripped := none, reason := none, recovering := false
              stepLimit := some (s.now + 15000) } })) ∧
        ∀ w r q g, (s.jb.platter k).present = false → o.kind ≠ .returnHome → rest = [] → s.settings.dispatch = false →
          let x := s.jb.drive o.drive
          x.work = some w → w.ref = .request r → s.jb.segment r = some (q, g) → x.parked = none → x.offlineFlag = false →
          let handsBack (h : Segment → Segment) : Prop :=
            cmd = .next (s.jbDone src 0x25 fun j => { ((j.onDrive o.drive fun x =>
                { x with work := none, pass := none, left := 0 }).onSegment r h) with
              orders := []
              picker := { p with
                state := .parked, gripped := none, reason := none, recovering := false, stepLimit := none } })
          (∀ m, q.kind = .read → x.pass = none → g.readSide = .primary → g.surface / 2 = k → g.mirror = some m →
            s.jb.reachable (m / 2) = true → handsBack fun g => { g with state := .queued, readSide := .mirror }) ∧
          ∀ y, q.kind = .write → x.pass = some y → handsBack fun g => { g with
            state := .queued, failedVerify := y.failed, primaryDone := y.side = .mirror, current := g.count })) ∧
    ∀ k, p.state = .busy → p.recovering = true → p.gripped = some k →
      exec (.pickerRecoveryRelease false) s = .next (s.withJb fun j => { j with
        orders := haltedOrders j.orders
        picker := { p with
          state := .fault, reason := some .grip, stepLimit := none, recovering := false, position := none } }) ∧
      (p.inventory = none → s.jb.orders = [] → s.jb.NoWork →
        exec (.pickerRecoveryRelease true) s = .next (s.withJb fun j => { (j.onPlatter k fun r =>
            { r with location := some .slot }) with
          picker := { p with
            state := .parked, gripped := none, position := some (.slot k), midway := false, recovering := false
            stepLimit := none } })) ∧
      ∀ o rest, p.inventory = none → s.jb.orders = o :: rest → o.state = .halted → (∀ y ∈ rest, y.drive ≠ o.drive) →
        s.settings.dispatch = false ∨ s.jb.NoWork →
        let home (st : PickerState) (limit : Option Nat) (j : Jukebox) : Jukebox := { (j.onPlatter k fun r =>
            { r with location := some .slot }) with
          picker := { p with
            state := st, gripped := none, position := some (.slot k), midway := false, recovering := false
            stepLimit := limit } }
        let goesOn (o : Order) : Prop := exec (.pickerRecoveryRelease true) s = .next (s.withJb fun j =>
          { home .busy (some (s.now + 15000)) j with orders := { o with state := .running, step := 4 } :: rest })
        (o.kind = .returnHome → o.outgoing = some k → rest = [] → s.jb.NoIntake →
          exec (.pickerRecoveryRelease true) s = .next (s.withJb fun j => { (home .parked none j).onDrive o.drive fun x =>
            if x.offlineFlag = true ∧ x.state = .empty then { x with state := .offline, offlineFlag := false } else x with
              orders := [] })) ∧
        (o.kind = .exchange → o.outgoing = some k → o.step = 3 → goesOn o) ∧
        (o.kind ≠ .returnHome → o.incoming = some k → (o.kind = .exchange → o.outgoing ≠ some k) →
          goesOn { o with kind := .exchange, outgoing := none })

/-- A picker step that exceeds its 15 s limit, and a grip that did not take hold, send the picker to FAULT: the running order
is HALTED at its step, the gripped platter stays, and a fault during a move leaves no position (which steps are moves,
`Jukebox.moving`, is log entry 18's); a failed grip of an incoming platter in its slot marks it missing (R82, R158).  Where no
limit runs PICKER_STEP_LIMIT changes nothing (log entry 5).  The last clause is for an empty request table. -/
def Obligations.PickerFaultHaltsTheOrder : Prop :=
  ∀ s : State, s.powered = true →
    let p := s.jb.picker
    let faulted (r : PickerReason) (pos : Option Position) (j : Jukebox) : Jukebox := { j with
      orders := haltedOrders j.orders
      picker := { p with
        state := .fault, reason := some r, stepLimit := none, recovering := false, position := pos } }
    (p.stepLimit ≠ none → p.state = .busy ∨ p.state = .inventory → exec .pickerStepLimit s = .next (s.withJb fun j =>
      faulted .stepLimit (if s.jb.moving then none else p.position) j)) ∧
    (p.stepLimit = none → exec .pickerStepLimit s = .next s.fresh) ∧
    ∀ o rest, p.state = .busy → p.inventory = none → s.jb.orders = o :: rest → o.state = .running →
      (o.step = 2 → exec .pickerGripFailure s = .next (s.withJb (faulted .grip p.position))) ∧
      ∀ k, o.step = 4 → o.incoming = some k → (s.jb.platter k).location = some .slot → s.jb.table = [] →
        exec .pickerGripFailure s = .next (s.withJb fun j =>
          (faulted .grip none j).onPlatter k fun r => { r with present := false, location := none })

/-! ## The steps of an exchange order -/

/-- Steps 1 and 2 at a drive (R78, R79): the picker's arrival ends step 1 when the drive has ejected its platter, else the
picker waits there with no limit; the grip takes the platter from the mouth, the drive becomes EMPTY (a drive in FAULT stays so
unless CLEAR DRIVE has begun, R154, R157), and the order goes on with step 5 for a TURNOVER and step 3 otherwise.  The drive of
an EXCHANGE or TURNOVER keeps its segment.  A RETURN HOME leaves a drive without one, which is OFFLINE at the grip when its
offline flag is set, but for the RETURN HOME that R74 placed for it, whose release makes it so (R74, R164; log entry 16); this
is stated with dispatch enable off or no work waiting. -/
def Obligations.PickerTakesFromTheDrive : Prop :=
  ∀ (s : State) (o : Order) (rest : List Order), s.powered = true → s.jb.picker.state = .busy →
    s.jb.picker.inventory = none → s.jb.orders = o :: rest → o.state = .running → (∀ x ∈ rest, x.drive ≠ o.drive) →
    (o.step = 1 → exec .pickerArrivesAtDrive s = .next (s.withJb fun j => { j with
      orders := (if (j.drive o.drive).ejected then { o with step := 2 } else o) :: rest
      picker := { j.picker with
        position := some (.drive o.drive), midway := false
        stepLimit := if (j.drive o.drive).ejected then some (s.now + 15000) else none } })) ∧
    ∀ k, o.step = 2 → o.outgoing = some k → s.jb.picker.gripped = none → (s.jb.drive o.drive).platter = some k →
      let x := s.jb.drive o.drive
      let stays := x.state = .fault ∧ x.clearing = false
      let taken (j : Jukebox) : Jukebox := { ((j.onDrive o.drive fun x =>
          if stays then { x with platter := none, ejected := false, limit := none }
          else { x with
            platter := none, ejected := false, limit := none, state := .empty, reason := none, clearing := false }).onPlatter
              k fun r => { r with location := some .picker }) with
        orders := { o with step := if o.kind = .turnover then 5 else 3 } :: rest
        picker := { j.picker with gripped := some k, stepLimit := some (s.now + 15000) } }
      (o.kind ≠ .returnHome → x.clearing = false → exec .pickerGripAtDrive s = .next (s.withJb taken)) ∧
      (o.kind = .returnHome → x.work = none → x.parked = none → s.settings.dispatch = false ∨ s.jb.NoWork →
        x.clearing = false ∨ s.jb.NoIntake → exec .pickerGripAtDrive s = .next (s.withJb fun j =>
          if x.offlineFlag = true ∧ o.forOffline = false ∧ ¬ stays then
            (taken j).onDrive o.drive fun x => { x with state := .offline, offlineFlag := false }
          else taken j))

/-- Steps 3 to 6 (R79 to R81): the release in its slot ends a RETURN HOME, and makes an offline-flagged drive OFFLINE (R74),
or goes on with step 4; the grip of the incoming platter goes on with step 5 when its orientation is not the wanted side and
step 6 otherwise; the flip reverses the orientation; at the seating the order ends, the drive enters LOADING with its 10 s
limit (R70) and the picker is PARKED there.  The drive keeps its segment throughout.  A release in a slot is stated with
dispatch enable off or no work waiting, and the end of an order with no other order in the queue. -/
def Obligations.PickerCarriesBetweenSlotAndDrive : Prop :=
  ∀ (s : State) (o : Order) (rest : List Order), s.powered = true → s.jb.picker.state = .busy →
    s.jb.picker.recovering = false → s.jb.picker.inventory = none → s.jb.orders = o :: rest → o.state = .running →
    (∀ x ∈ rest, x.drive ≠ o.drive) →
    let calm := s.settings.dispatch = false ∨ s.jb.NoWork
    (∀ k, o.step = 3 → o.outgoing = some k → s.jb.picker.gripped = some k → o.kind = .returnHome → rest = [] → calm →
      s.jb.NoIntake →
      exec .platterReleaseInSlot s = .next (s.withJb fun j => { ((j.onPlatter k fun r =>
          { r with location := some .slot }).onDrive o.drive fun x =>
            if x.offlineFlag ∧ x.state = .empty then { x with state := .offline, offlineFlag := false } else x) with
        orders := []
        picker := { j.picker with
          state := .parked, gripped := none, position := some (.slot k), midway := false, stepLimit := none } })) ∧
    (∀ k, o.step = 3 → o.outgoing = some k → s.jb.picker.gripped = some k → o.kind ≠ .returnHome → calm →
      exec .platterReleaseInSlot s = .next (s.withJb fun j => { (j.onPlatter k fun r =>
          { r with location := some .slot }) with
        orders := { o with step := 4 } :: rest
        picker := { j.picker with
          gripped := none, position := some (.slot k), midway := false, stepLimit := some (s.now + 15000) } })) ∧
    (∀ k, o.step = 4 → o.incoming = some k → s.jb.picker.gripped = none → (s.jb.platter k).location = some .slot →
      exec .incomingPlatterGrip s = .next (s.withJb fun j => { (j.onPlatter k fun r =>
          { r with location := some .picker }) with
        orders := { o with step := if o.wanted = some (j.platter k).orientation then 6 else 5 } :: rest
        picker := { j.picker with
          gripped := some k, position := some (.slot k), midway := false, stepLimit := some (s.now + 15000) } })) ∧
    (∀ k, o.step = 5 → s.jb.picker.gripped = some k →
      exec .pickerFlipEnd s = .next (s.withJb fun j => { (j.onPlatter k fun r =>
          { r with orientation := if r.orientation = .a then .b else .a }) with
        orders := { o with step := if o.kind = .returnHome then 3 else 6 } :: rest
        picker := { j.picker with stepLimit := some (s.now + 15000) } })) ∧
    ∀ k, o.step = 6 → o.incoming = some k → s.jb.picker.gripped = some k → (s.jb.drive o.drive).platter = none → rest = [] →
      exec .platterSeated s = .next (s.withJb fun j => { ((j.onPlatter k fun r =>
          { r with location := some (.drive o.drive) }).onDrive o.drive fun x =>
            { x with state := .loading, platter := some k, limit := some (s.now + 10000) }) with
        orders := []
        picker := { j.picker with
          state := .parked, gripped := none, position := some (.drive o.drive), midway := false, stepLimit := none } })

/-- Inventory's first task takes the picker's own grip and then the drives D0 to D3 (R189).  The home slot of a platter gripped
or in a drive is checked, and an occupied one is kept in mind (R159).  An empty one has the gripped platter released there, or
the drive unloaded, the platter gripped at its mouth, carried home and released, its orientation written from the surface the
drive reported (log entry 25 on the records meanwhile).  An occupied one has the gripped platter inserted into the
lowest-numbered drive that reported none (also an OFFLINE one: log entry 25), or without such a drive the picker in FAULT with
reason GRIP, still gripping; a drive whose platter stays is in FAULT with reason ORPHAN, the platter held.  A drive in FAULT
makes its eject attempt in place of the unload, and one whose eject was not taken keeps its platter, held.  In the second task
the check of slot `n` records platter `n` found there, or a misfile note for another platter, and goes on with the next slot; a
platter left in a drive keeps its record.  After slot 95 inventory ends and the picker is PARKED there (R190, R191); the end is
stated for no work waiting and no order in the queue. -/
def Obligations.InventoryChecksEverySlot : Prop :=
  ∀ s : State, s.powered = true → s.jb.picker.state = .inventory →
    let p := s.jb.picker
    let at' (n : Nat) (j : Jukebox) : Jukebox :=
      { j with picker := { j.picker with position := some (.slot n), midway := false } }
    let task (t : InvTask) (j : Jukebox) : Jukebox :=
      { j with picker := { j.picker with inventory := some t, stepLimit := some (s.now + 15000) } }
    -- the first drive from `n` on whose platter inventory has still to carry home, else the slots
    let onward (n : Nat) (j : Jukebox) : Jukebox := task (match [0, 1, 2, 3].find? fun (y : Fin 4) =>
        decide (n ≤ y.val) && (j.drive y).platter.isSome && (j.drive y).reason != some .orphan with
      | some y => .driveCheck y
      | none => .slot 0) j
    let taken (k : Nat) (j : Jukebox) : Jukebox := { j with picker := { j.picker with slotTaken := k :: j.picker.slotTaken } }
    let holds (d : Fin 4) (k : Nat) (j : Jukebox) : Jukebox := j.onPlatter k fun r =>
      { r with present := true, location := some (.drive d), held := true }
    let orphaned (d : Fin 4) (k : Nat) (j : Jukebox) : Jukebox := holds d k (j.onDrive d fun x => { x with
      state := .fault, platter := some k, mounted := none, dwell := none, limit := none, ejecting := false
      clearing := false, reason := some .orphan })
    (∀ k, p.inventory = some (.gripCheck k) →
      exec (.inventorySlotCheck none) s = .next (s.withJb fun j => task (.gripRelease k) (at' k j)) ∧
      ∀ f, (∀ d, (∀ y < d, (s.jb.drive y).platter.isSome) → (s.jb.drive d).platter = none →
          exec (.inventorySlotCheck (some f)) s = .next (s.withJb fun j => task (.gripInsert k d) (taken k (at' k j)))) ∧
        ((∀ d, (s.jb.drive d).platter.isSome) →
          exec (.inventorySlotCheck (some f)) s = .next (s.withJb fun j => { taken k (at' k j) with
            orders := haltedOrders j.orders
            picker := { (taken k (at' k j)).picker with
              state := .fault, reason := some .grip, stepLimit := none, recovering := false
              inventory := some (.gripStuck k) } }))) ∧
    (∀ k, p.inventory = some (.gripRelease k) →
      exec .platterReleaseInSlot s = .next (s.withJb fun j =>
        onward 0 { at' k j with picker := { (at' k j).picker with gripped := none } })) ∧
    (∀ k d, p.inventory = some (.gripInsert k d) → p.gripped = some k → (s.jb.drive d).platter = none →
      exec .platterSeated s = .next (s.withJb fun j => onward 0 (orphaned d k { j with
        picker := { j.picker with gripped := none, position := some (.drive d), midway := false } }))) ∧
    (∀ d k, p.inventory = some (.driveCheck d) → (s.jb.drive d).platter = some k →
      let x := s.jb.drive d
      let checks (c : Option Found) (f : Jukebox → Jukebox) : Prop :=
        exec (.inventorySlotCheck c) s = .next (s.withJb fun j => f (at' k j))
      (∀ f, checks (some f) fun j => onward (d.val + 1) (orphaned d k (taken k j))) ∧
      (x.state ≠ .fault → checks none fun j => task (.driveUnload d) (j.onDrive d fun x =>
        { x with state := .unloading, mounted := none, dwell := none, limit := some (s.now + 10000) })) ∧
      (x.state = .fault → x.ejected = true ∨ x.ejecting = true → checks none (task (.driveUnload d))) ∧
      (x.state = .fault → x.ejected = false → x.ejecting = false →
        checks none fun j => onward (d.val + 1) (holds d k j))) ∧
    (∀ d, p.inventory = some (.driveUnload d) →
      let stands (j : Jukebox) : Jukebox := { j with picker := { j.picker with position := some (.drive d), midway := false } }
      exec .pickerArrivesAtDrive s = .next (s.withJb fun j =>
        if (s.jb.drive d).ejected then task (.driveGrip d) (stands j)
        else { stands j with picker := { (stands j).picker with stepLimit := none } })) ∧
    (∀ d k, p.inventory = some (.driveGrip d) → (s.jb.drive d).platter = some k → (s.jb.drive d).work = none →
      (s.jb.drive d).parked = none → s.jb.orders = [] →
      exec .pickerGripAtDrive s = .next (s.withJb fun j => task (.driveCarry d k) { ((j.onDrive d fun x =>
          let y := { x with platter := none, ejected := false, limit := none }
          if x.state = .fault ∧ x.clearing = false then y
          else { y with
            state := if x.offlineFlag then .offline else .empty, offlineFlag := false, reason := none
            clearing := false }).onPlatter k fun r => { r with present := false, location := none, held := false }) with
        picker := { j.picker with gripped := some k } })) ∧
    (∀ d k, p.inventory = some (.driveCarry d k) →
      exec .platterReleaseInSlot s = .next (s.withJb fun j => onward (d.val + 1) ((at' k { j with
        picker := { j.picker with gripped := none } }).onPlatter k fun r =>
          { r with orientation := match (s.jb.drive d).reported with
            | some m => if m % 2 = 0 then .a else .b
            | none => r.orientation }))) ∧
    ∀ n found, p.inventory = some (.slot n) → (n < 95 ∨ (n = 95 ∧ s.jb.orders = [] ∧ s.jb.NoWork)) →
      let recorded (j : Jukebox) : Jukebox := match found with
        | none => j
        | some f =>
          if f.label = n then
            j.onPlatter n fun r =>
              if ∃ d, r.location = some (.drive d) then r
              else { r with present := true, location := some .slot, orientation := f.up }
          else j.onPlatter f.label fun r => { r with misfile := some n }
      exec (.inventorySlotCheck found) s = .next (s.withJb fun j => { recorded j with
        picker := if n = 95 then
            { j.picker with
              state := .parked, position := some (.slot 95), midway := false, inventory := none, stepLimit := none }
          else
            { j.picker with
              position := some (.slot n), midway := false, inventory := some (.slot (n + 1))
              stepLimit := some (s.now + 15000) } })

/-! ## The arbiter's ranking -/

/-- The ranking of the five levels (R47 to R49): each level once; EXPRESS above COUNTER; the back-office tier in the order of
its code; the tiers by the tier code and the turn; and with the FREE lines at or below the low-water mark EXPRESS first and
FLUSH second, the other three in the order they have without promotion.  And the push of an accepted READ of one drive segment:
among the drives free and eligible for it the one with its target mounted, else the one with its platter, else the
lowest-numbered EMPTY one, else the READY one longest unused takes it (R56); with none, an EXPRESS segment cuts the dwell of the
eligible drive longest unused (R59), or else becomes the pending preemption of the drive with the most blocks left among those
R60 lets it displace; another segment waits QUEUED. -/
def Obligations.RankingFollowsTheCodes : Prop :=
  (∀ (t : Settings) (last : Tier) (free : Nat), t.InRange →
    let r := ranking t last free
    let above (a b : Level) : Prop := r.idxOf a < r.idxOf b
    let back : List Level := match t.backCode with
      | 0 => [.staff, .write, .flush]
      | 1 => [.staff, .flush, .write]
      | 2 => [.write, .staff, .flush]
      | 3 => [.write, .flush, .staff]
      | 4 => [.flush, .staff, .write]
      | _ => [.flush, .write, .staff]
    let counterHigh : Prop := t.tierCode = 0 ∨ (t.tierCode = 2 ∧ last = .backOffice)
    r.Perm [.express, .counter, .staff, .write, .flush] ∧ above .express .counter ∧
    (t.lowWater < free →
      (r.filter fun l => l != .express && l != .counter) = back ∧
      ∀ l ∈ back, (counterHigh → above .counter l) ∧ (¬ counterHigh → above l .express)) ∧
    (free ≤ t.lowWater →
      r.take 2 = [.express, .flush] ∧
      (r.filter fun l => l != .express && l != .flush && l != .counter) = (back.filter fun l => l != .flush) ∧
      ∀ l ∈ [Level.staff, .write], (counterHigh → above .counter l) ∧ (¬ counterHigh → above l .counter))) ∧
  ∀ (s : State) (src : Src) (lba n target first : Nat), s.powered = true → lba / 67108864 ≠ 7 →
    firstHolding (acceptanceChecks s src .read lba n) = none → divide (lba % 67108864) n = [(target, first, n)] →
    let unit := s.map.resolve target first
    let w := s.map.window (lba / 67108864)
    let level : Level := if w.express then .express else if w.feeClass = 0 then .staff else .counter
    unit.htype = .sealed ∨ unit.htype = .direct → unit.readRoute = .primary → s.settings.dispatch = true →
    s.settings.enables level = true → (s.jb.platter (target / 2)).present = true → (s.jb.platter (target / 2)).held = false →
    let r : SegRef := ⟨src.initiator, src.tag, 0⟩
    let suits (d : Fin 4) : Prop := s.jb.idle d = true ∧ s.jb.eligible target d = true
    let free (d : Fin 4) : Prop := suits d ∧ ((s.jb.drive d).dwell = none ∨ (s.jb.drive d).mounted = some target)
    let place (d : Fin 4) : Nat :=
      if (s.jb.drive d).mounted = some target then 0 else if (s.jb.drive d).platter = some (target / 2) then 1
      else if (s.jb.drive d).state = .empty then 2 else 3
    let longerUnused (d x : Fin 4) : Prop := (s.jb.drive d).lastUse < (s.jb.drive x).lastUse ∨
      ((s.jb.drive d).lastUse = (s.jb.drive x).lastUse ∧ d ≤ x)
    let victim (d : Fin 4) : Prop := let x := s.jb.drive d
      x.state = .transfer ∧ (∃ v, x.work = some v ∧ v.level.tier = .backOffice) ∧ x.parked = none ∧ x.preempt = none ∧
        x.offlineFlag = false ∧ s.jb.eligible target d = true
    ∃ t, exec (.read src lba n) s = .next t ∧
      (∀ d, free d → (∀ x, free x → place d < place x ∨
          (place d = place x ∧ if place d = 3 then longerUnused d x else d ≤ x)) →
        ∃ v, (t.jb.drive d).work = some v ∧ v.ref = .request r ∧ (t.jb.drive d).dwell = none) ∧
      ((∀ d, ¬ free d) → level = .express →
        (∀ d, suits d → (s.jb.drive d).dwell ≠ none →
          (∀ x, suits x → (s.jb.drive x).dwell ≠ none → longerUnused d x) →
          ∃ v, (t.jb.drive d).work = some v ∧ v.ref = .request r ∧ (t.jb.drive d).dwell = none) ∧
        ((∀ d, suits d → (s.jb.drive d).dwell = none) → s.settings.preempt = true → ∀ d, victim d →
          (∀ x, victim x → (s.jb.drive x).left < (s.jb.drive d).left ∨
            ((s.jb.drive x).left = (s.jb.drive d).left ∧ d ≤ x)) →
          t.jb.drives = (s.jb.onDrive d fun x => { x with preempt := some r }).drives)) ∧
      ((∀ d, ¬ free d) → level ≠ .express → t.jb.drives = s.jb.drives ∧
        ∃ q g, t.jb.segment r = some (q, g) ∧ g.state = .queued)

/-! ## Drives: spin-up, dwell, bursts and verifies -/

/-- A spin-up makes a LOADING drive READY with the surface its platter shows up, or has it enter TRANSFER for the segment it
holds (R68, R70): a read whose burst begins takes the source of each of its blocks by the table of R90 (as the burst begins:
log entry 11), and a request write has its first burst's data fetched (R36).  A dwell that expires ends with a full pull: of
the highest-ranked enabled level whose list holds a segment eligible for the drive it takes the oldest one for its mounted
surface, or without one the oldest eligible one, and with no such segment, or dispatch enable off, it stays as it is (R55,
R58).  A spin-up of a drive that is not LOADING and an expiry with no dwell running change nothing (log entry 5). -/
def Obligations.SpinUpAndDwellEnd : Prop :=
  ∀ (s : State) (d : Fin 4), s.powered = true →
    let x := s.jb.drive d
    (x.state ≠ .loading → exec (.spinUpComplete d) s = .next s.fresh) ∧
    (∀ k, x.state = .loading → x.platter = some k →
      let up := if (s.jb.platter k).orientation = .a then 2 * k else 2 * k + 1
      (x.work = none → x.parked = none → x.offlineFlag = false → (∀ o ∈ s.jb.orders, o.drive ≠ d) → s.jb.NoWork →
        exec (.spinUpComplete d) s = .next (s.withJb fun j => j.onDrive d fun x =>
          { x with state := .ready, mounted := some up, lastUse := s.now, limit := none })) ∧
      ∀ w, x.work = some w →
        let enters (w : Work) (j : Jukebox) : Jukebox := j.onDrive d fun x =>
          { x with state := .transfer, mounted := some up, lastUse := s.now, limit := none, work := some w }
        ((w.dropped.isSome ∨ ∃ n i, w.ref = .flush n i) →
          exec (.spinUpComplete d) s = .next (s.withJb (enters w))) ∧
        ∀ r q g, w.dropped = none → w.ref = .request r → s.jb.segment r = some (q, g) →
          let b := g.first + g.count - g.current
          let source (b : Nat) : Source := match g.htype with
            | .retain => match s.jb.retain.find? fun l => l.surface = g.surface && l.index = b / 16 with
              | some _ => .cached (cachedBlock s.jb.retain g.surface b)
              | none => .platter
            | .gather =>
              if b < (s.jb.surface g.surface).sealMark then .platter
              else if b < (s.jb.surface g.surface).appendPoint then .staged (s.jb.stagedBlock g.surface b)
              else .nothing
            | .void => .nothing
            | _ => .platter
          (q.kind = .read → exec (.spinUpComplete d) s = .next (s.withJb (enters
            { w with reached := (List.range (min 64 x.left)).map fun i => source (b + i) }))) ∧
          (q.kind = .write → exec (.spinUpComplete d) s = .next (s.withJb fun j => { enters w j with
            bus := [.fetch r.initiator r.tag
              (q.window * 67108864 + g.surface * 262144 + (g.first + g.count - x.left)) (min 64 x.left)] }))) ∧
    (x.dwell = none → exec (.dwellDeadlineExpiry d) s = .next s.fresh) ∧
    (x.dwell ≠ none → (s.jb.NoWork ∨ s.settings.dispatch = false ∨
        ∀ l, s.settings.enables l = true → ∀ it ∈ s.jb.queued l, s.jb.eligible it.target d = false) →
      exec (.dwellDeadlineExpiry d) s = .next (s.withJb fun j => j.onDrive d fun x => { x with dwell := none })) ∧
    (x.dwell ≠ none → s.settings.dispatch = true → s.jb.idle d = true →
      let offers (l : Level) : Prop := s.settings.enables l = true ∧ ∃ it ∈ s.jb.queued l, s.jb.eligible it.target d = true
      let rank (l : Level) : Nat := (ranking s.settings s.jb.lastTier s.jb.freeLines).idxOf l
      let here (it : Item) : Prop := s.jb.eligible it.target d = true ∧ x.mounted = some it.target
      (∃ l, offers l) → ∃ t w it older younger, exec (.dwellDeadlineExpiry d) s = .next t ∧
        (t.jb.drive d).work = some w ∧ (t.jb.drive d).dwell = none ∧ (t.jb.drive d).left = it.size ∧
        t.jb.lastTier = w.level.tier ∧ offers w.level ∧ (∀ l, offers l → rank w.level ≤ rank l) ∧
        s.jb.queued w.level = older ++ it :: younger ∧ s.jb.eligible it.target d = true ∧ w.ref = it.ref ∧
        ((here it ∧ ∀ y ∈ older, ¬ here y) ∨
          ((∀ y ∈ s.jb.queued w.level, ¬ here y) ∧ ∀ y ∈ older, s.jb.eligible y.target d = false)))

/-- Bursts and verifies of a DIRECT or RETAIN write (R36, R71, R72, R98, R125).  A burst end with blocks left begins the next
burst and fetches its data, or, with a preemption pending, parks the remainder while the drive takes the EXPRESS segment (R61,
R62); the last one begins the verify, a pending preemption being withdrawn and considered once more for another victim (R60,
R61).  A failed verify before the third writes the side again from its first block.  A passed verify of the primary pass
replaces the cached blocks of a RETAIN write by the written data; after it a DUAL write goes on with its mirror pass through an
order (the step a QUEUED order shows: log entry 36), or, when the drive cannot reach the mirror platter, rejoins its list with
its primary side done.  The last required verify, or the third failure, ends the segment: GOOD, or MEDIA ERROR with the lines
of a RETAIN write's blocks discarded when the side is the primary.  At a burst end or verify end past its request's deadline
the segment is DONE TIMEOUT, and the lines of blocks a RETAIN write's primary pass has written are discarded (R39, R98), of a
pass begun again after a failed verify those written since (log entry 23).  The segment's own current count falls with each
burst, and is its count again at each new pass, and the segment's failed-verify count and sides done stay while the drive holds
it: log entry 24.  The ends are stated for a request of one segment and a drive with nothing else to do, which dwells (R57),
with dispatch enable off or nothing else waiting. -/
def Obligations.WritePassesAreVerified : Prop :=
  ∀ (s : State) (d : Fin 4) (w : Work) (p : Pass) (q : Request) (g : Segment) (k : Nat), s.powered = true →
    s.jb.TableWf → q ∈ s.jb.table → let x := s.jb.drive d
    x.work = some w → w.ref = .request ⟨q.initiator, q.tag, k⟩ → w.dropped = none → x.pass = some p →
    q.segments[k]? = some g → q.kind = .write →
    let fetched (b n : Nat) : BusMsg :=
      .fetch q.initiator q.tag (q.window * 67108864 + g.surface * 262144 + b) (min 64 n)
    let counted (c : Nat) (j : Jukebox) : Jukebox := j.onSegment ⟨q.initiator, q.tag, k⟩ fun g => { g with current := c }
    let data := (List.range g.count).map fun k => q.dataAt g (g.first + k)
    let verified (j : Jukebox) : Jukebox := { j with
      retain := if g.htype = .retain ∧ p.side = .primary then
          retainUpdate j.retain g.surface g.first (g.first + g.count) data else j.retain }
    let discarded (hi : Nat) (j : Jukebox) : Jukebox := { j with
      retain := if g.htype = .retain ∧ p.side = .primary then retainDiscard j.retain g.surface g.first hi else j.retain }
    (q.state = .active → x.state = .transfer → x.preempt = none →
      (x.left ≤ 64 → ∀ media, exec (.burstEnd d media) s = .next (s.withJb fun j =>
        (counted (g.current - x.left) j).onDrive d fun x => { x with state := .verify, left := 0, lastUse := s.now })) ∧
      (64 < x.left → ∀ media, exec (.burstEnd d media) s = .next (s.withJb fun j =>
        { (counted (g.current - 64) j).onDrive d fun x => { x with left := x.left - 64, lastUse := s.now } with
          bus := [fetched (g.first + g.count - (x.left - 64)) (x.left - 64)] }))) ∧
    (∀ r it, q.state = .active → x.state = .transfer → x.preempt = some r → s.jb.itemOf (.request r) = some it →
      (r.initiator, r.tag) ≠ (q.initiator, q.tag) →
      (64 < x.left → s.jb.eligible it.target d = true → ∀ m media, x.mounted = some m →
        ∃ t w' q', exec (.burstEnd d media) s = .next t ∧ (t.jb.drive d).work = some w' ∧ w'.ref = .request r ∧
          (t.jb.drive d).preempt = none ∧
          (t.jb.drive d).parked = some ⟨w.ref, w.level, m, g.first + g.count - (x.left - 64), x.left - 64, x.pass⟩ ∧
          t.jb.segment ⟨q.initiator, q.tag, k⟩ = some (q', { g with state := .parked, current := g.current - 64 })) ∧
      (x.left ≤ 64 →
        let verifies (h : Jukebox → Jukebox) : Prop := ∀ media, exec (.burstEnd d media) s = .next (s.withJb fun j =>
          h ((counted (g.current - x.left) j).onDrive d fun x =>
            { x with state := .verify, left := 0, preempt := none, lastUse := s.now }))
        let mayPreempt : Prop := it.level = .express ∧ s.settings.preempt = true ∧ s.settings.dispatch = true ∧
          s.settings.enables .express = true
        let victim (y : Fin 4) : Prop := y ≠ d ∧ s.jb.victim it.target y = true
        (¬ mayPreempt ∨ (∀ y, ¬ victim y) → verifies id) ∧
        ∀ v, mayPreempt → victim v → (∀ y, victim y → (s.jb.drive y).left < (s.jb.drive v).left ∨
            ((s.jb.drive y).left = (s.jb.drive v).left ∧ v ≤ y)) →
          verifies fun j => j.onDrive v fun x => { x with preempt := some r })) ∧
    (q.state = .active → x.state = .verify → p.failed < 2 →
      exec (.verifyEnd d false) s = .next (s.withJb fun j => { ((counted g.count j).onDrive d fun x =>
          { x with state := .transfer, lastUse := s.now, left := g.count, pass := some ⟨p.side, p.failed + 1⟩ }) with
        bus := [fetched g.first g.count] })) ∧
    (q.state = .active → x.state = .verify → p.side = .primary → g.writeRoute = .dual → ∀ m, g.mirror = some m →
      x.mounted ≠ some m → s.jb.eligible m d = true → (∀ o ∈ s.jb.orders, o.drive ≠ d) → s.jb.picker.state ≠ .parked →
      exec (.verifyEnd d true) s = .next (s.withJb fun j => { ((counted g.count (verified j)).onDrive d fun x =>
          { x with state := .ready, pass := some ⟨.mirror, p.failed⟩, left := g.count, lastUse := s.now }) with
        orders := j.orders ++ [⟨d, if x.platter = some (m / 2) then .turnover else .exchange, x.platter, some (m / 2),
          some (if m % 2 = 0 then .a else .b), false, if x.platter = none then 4 else 1, .queued, false, false⟩] })) ∧
    (k = 0 → q.segments = [g] → x.parked = none → x.preempt = none → x.offlineFlag = false →
      (∀ o ∈ s.jb.orders, o.drive ≠ d) → 0 < s.settings.dwell →
      s.settings.dispatch = false ∨ (s.jb.table = [q] ∧ s.jb.flushes = []) →
      let freed (q' : Request) (j : Jukebox) : Jukebox := { (j.onDrive d fun x =>
          { x with
            state := .ready, work := none, pass := none, left := 0, lastUse := s.now
            dwell := some (s.now + s.settings.dwell) }) with
        table := j.table.map fun y => if y.initiator = q.initiator && y.tag = q.tag then q' else y }
      let ended (st : Status) (cur : Nat) : Request := { q with
        state := .completing, status := st
        segments := [{ g with state := .done, status := st, current := cur, kept := [] }]
        delivered := q.delivered + g.served, billable := q.billable + g.billable, staged := q.staged + g.staged }
      let stopped (cur : Nat) : Request := { q with
        segments := [{ g with
          state := .done, status := .timeout, current := cur, served := 0, billable := 0, staged := 0, kept := [] }] }
      (q.state = .active → g.kept = [] → x.state = .verify →
        (p.side = .mirror ∨ g.writeRoute = .primary ∨ g.mirror = none →
          exec (.verifyEnd d true) s = .next (s.withJb fun j => verified (freed (ended .good 0) j))) ∧
        (2 ≤ p.failed → exec (.verifyEnd d false) s = .next (s.withJb fun j =>
          discarded (g.first + g.count) (freed (ended .mediaError g.current) j))) ∧
        (∀ m, p.side = .primary → g.writeRoute = .dual → g.mirror = some m → s.jb.eligible m d = false →
          s.settings.dispatch = false →
          exec (.verifyEnd d true) s = .next (s.withJb fun j => verified (freed { q with
            segments := [{ g with
              state := .queued, current := g.count, failedVerify := p.failed, primaryDone := true }] } j)))) ∧
      (q.state = .completing →
        (x.state = .transfer → ∀ media, exec (.burstEnd d media) s = .next (s.withJb fun j =>
          discarded (g.first + g.count - (x.left - min 64 x.left)) (freed (stopped (g.current - min 64 x.left)) j))) ∧
        (x.state = .verify → ∀ passed, exec (.verifyEnd d passed) s = .next (s.withJb fun j =>
          discarded (g.first + g.count) (freed (stopped g.current) j)))))

/-- Bursts of a read (R71, R90 to R94, R96, R97, R102).  The sources of a burst's blocks stand in the drive's record from its
beginning (log entry 11).  A burst of platter blocks serves them as the drive reports them, billable in a class of 1..7 for a
SEALED or GATHER unit; a burst off gather lines serves staged blocks; one off retain lines makes those lines the most recently
used, or reads the platter for lines no more cached (R97); and the lines a RETAIN read has read whole from the platter, with
their padding, are installed.  A burst end with blocks left begins the next burst, or, with a preemption pending, parks the
remainder while the drive takes the EXPRESS segment (R61, R62).  The last burst ends the segment, which is delivered.  The
first block that is BLANK ends it at that burst end with BLANK; one that is unreadable sends it to its mirror surface from that
block on (R101), or without one ends it with MEDIA ERROR; the blocks before are kept or delivered.  A burst end past the
request's deadline stops it with TIMEOUT and delivers nothing (R39, R71 case 1).  However the segment ends, a pending
preemption has the drive take the EXPRESS segment (R61); and a drive with a parked context takes first a further EXPRESS
segment for its mounted surface, the oldest, with dispatch enable on, and otherwise resumes its parked context with the
context's remaining count, at once when its surface is mounted and else through an order (R63; the step a QUEUED order shows:
log entry 36; its progress fields stay: log entry 24).  The other ends are stated for a request of one segment that stands
alone in the table, or, where the segment goes back to its list, with dispatch enable off, and a drive with nothing else to do,
which dwells (R57). -/
def Obligations.ReadBurstsAreServed : Prop :=
  ∀ (s : State) (d : Fin 4) (w : Work) (q : Request) (g : Segment) (k : Nat) (f : Nat → Block), s.powered = true →
    let x := s.jb.drive d
    x.state = .transfer → x.work = some w → w.ref = .request ⟨q.initiator, q.tag, k⟩ → w.dropped = none →
    s.jb.request q.initiator q.tag = some q → q.segments[k]? = some g → q.kind = .read →
    x.left = g.current → g.current ≤ g.count →
    let next := g.first + g.count - g.current
    let size := min 64 x.left
    let media (n : Nat) : List (Nat × MediaRead) := (List.range n).map fun i => (next + i, .data (f i))
    let blocks (n : Nat) : List Block := (List.range n).map f
    let billed (n : Nat) : Nat := if 1 ≤ q.feeClass ∧ (g.htype = .sealed ∨ g.htype = .gather) then n else 0
    let grown (n m bill stg : Nat) (g : Segment) : Segment := { g with
      current := g.current - n, kept := g.kept ++ blocks m, served := g.served + m, billable := g.billable + bill
      staged := g.staged + stg }
    let platter := w.reached = List.replicate size .platter ∧ g.htype ≠ .retain
    let freed (q' : Request) (j : Jukebox) : Jukebox := { (j.onDrive d fun x =>
        { x with
          state := .ready, work := none, pass := none, left := 0, preempt := none, lastUse := s.now
          dwell := some (s.now + s.settings.dwell) }) with
      table := [q'] }
    let unnamed : Prop := ∀ o ∈ s.jb.orders, o.drive ≠ d
    -- nothing is left for the drive to do but to dwell
    let dwells : Prop := s.jb.table = [q] ∧ s.jb.flushes = [] ∧ x.parked = none ∧ x.offlineFlag = false ∧ unnamed ∧
      0 < s.settings.dwell
    -- the burst end ends the segment with a status of its own
    let ends (all : List (Nat × MediaRead)) (st : Status) : Prop := (q.state = .completing ∧ st = .timeout) ∨
      (q.state = .active ∧ platter ∧ ((x.left ≤ 64 ∧ all = media x.left ∧ st = .good) ∨
        ∃ m, m < size ∧ ((all = media m ++ [(next + m, .blank)] ∧ st = .blank) ∨
          ((g.mirror = none ∨ g.readSide = .mirror) ∧ all = media m ++ [(next + m, .unreadable)] ∧ st = .mediaError))))
    (q.state = .active → platter → 64 < x.left → x.preempt = none → g.htype = .sealed ∨ g.htype = .direct →
      exec (.burstEnd d (media 64)) s = .next (s.withJb fun j =>
        (j.onSegment ⟨q.initiator, q.tag, k⟩ (grown 64 64 (billed 64) 0)).onDrive d fun x => { x with
          left := x.left - 64, lastUse := s.now
          work := some { w with reached := List.replicate (min 64 (x.left - 64)) .platter } })) ∧
    (∀ r it, q.state = .active → platter → 64 < x.left → x.preempt = some r → s.jb.itemOf (.request r) = some it →
      s.jb.eligible it.target d = true → (r.initiator, r.tag) ≠ (q.initiator, q.tag) → ∀ m, x.mounted = some m →
      ∃ t w' q' g', exec (.burstEnd d (media 64)) s = .next t ∧ (t.jb.drive d).work = some w' ∧ w'.ref = .request r ∧
        (t.jb.drive d).preempt = none ∧
        (t.jb.drive d).parked = some ⟨w.ref, w.level, m, next + 64, x.left - 64, x.pass⟩ ∧
        t.jb.segment ⟨q.initiator, q.tag, k⟩ = some (q', g') ∧ g'.state = .parked) ∧
    (∀ all st, ends all st → k = 0 → q.segments = [g] → g.state = .inService → s.jb.TableWf → unnamed →
      let goesOn (h : State → Work → Prop) : Prop := ∃ t w' q' g', exec (.burstEnd d all) s = .next t ∧
        t.jb.segment ⟨q.initiator, q.tag, 0⟩ = some (q', g') ∧ q'.state = .completing ∧ g'.state = .done ∧ g'.status = st ∧
        (t.jb.drive d).work = some w' ∧ (t.jb.drive d).dwell = none ∧ h t w'
      (∀ r it, x.preempt = some r → s.jb.itemOf (.request r) = some it → s.jb.eligible it.target d = true →
        (r.initiator, r.tag) ≠ (q.initiator, q.tag) → goesOn fun t w' => w'.ref = .request r ∧
          (t.jb.drive d).preempt = none ∧ (t.jb.drive d).parked = x.parked) ∧
      ∀ c, x.parked = some c → x.preempt = none →
        let further (it : Item) : Bool := decide (x.mounted = some it.target) && s.jb.eligible it.target d
        (∀ it, s.settings.dispatch = true → s.settings.enables .express = true → x.offlineFlag = false →
          s.jb.picker.inventory = none → (s.jb.queued .express).find? further = some it → goesOn fun t w' =>
            w'.ref = it.ref ∧ (t.jb.drive d).state = .transfer ∧ (t.jb.drive d).left = it.size ∧
            (t.jb.drive d).parked = some c) ∧
        ((∀ r, c.ref = .request r → (r.initiator, r.tag) ≠ (q.initiator, q.tag)) →
          s.settings.dispatch = false ∨ s.settings.enables .express = false ∨
            (∀ it ∈ s.jb.queued .express, further it = false) → goesOn fun t w' =>
            w'.ref = c.ref ∧ w'.level = c.level ∧ (t.jb.drive d).left = c.remaining ∧ (t.jb.drive d).pass = c.pass ∧
            (t.jb.drive d).parked = none ∧ t.jb.lastTier = s.jb.lastTier ∧
            (x.mounted = some c.surface → (t.jb.drive d).state = .transfer ∧ t.jb.orders = s.jb.orders) ∧
            (x.mounted ≠ some c.surface → s.jb.picker.state ≠ .parked → (t.jb.drive d).state = .ready ∧
              t.jb.orders = s.jb.orders ++ [⟨d, if x.platter = some (c.surface / 2) then .turnover else .exchange, x.platter,
                some (c.surface / 2), some (if c.surface % 2 = 0 then .a else .b), false,
                if x.platter = none then 4 else 1, .queued, false, false⟩]) ∧
            (∀ n l y, c.ref = .flush n l → s.jb.flush n = some y → t.jb.flush n = some { y with state := .inService }) ∧
            ∀ r q₂ g₂, c.ref = .request r → s.jb.segment r = some (q₂, g₂) →
              (∃ q₃, t.jb.segment r = some (q₃, { g₂ with state := .inService })) ∧
              (x.mounted = some c.surface → c.next = g₂.first + g₂.count - c.remaining → q₂.kind = .write →
                t.jb.bus.getLast? = some (.fetch r.initiator r.tag
                  (q₂.window * 67108864 + g₂.surface * 262144 + c.next) (min 64 c.remaining))))) ∧
    (q.state = .completing → k = 0 → q.segments = [g] → dwells → ∀ all, ∃ cache,
      exec (.burstEnd d all) s = .next (s.withJb fun j => { freed { q with
        segments := [{ g with
          state := .done, status := .timeout, current := g.current - size, served := 0, billable := 0, staged := 0
          kept := [] }] } j with retain := cache }) ∧
      (g.htype ≠ .retain → (∀ b, .cached b ∉ w.reached) → cache = s.jb.retain)) ∧
    (q.state = .active → k = 0 → q.segments = [g] → dwells →
      let ended (st : Status) (m bill stg cur : Nat) (j : Jukebox) : Jukebox := { freed { q with
            state := .completing, status := st
            segments := [{ grown size m bill stg g with state := .done, status := st, current := cur, kept := [] }]
            delivered := q.delivered + (g.served + m), billable := q.billable + (g.billable + bill)
            staged := q.staged + (g.staged + stg) } j with
        bus := if g.kept ++ blocks m = [] then [] else
          [.data q.initiator q.tag (q.window * 67108864 + g.surface * 262144 + g.first) (g.kept ++ blocks m)] }
      (platter →
        (x.left ≤ 64 → exec (.burstEnd d (media x.left)) s =
          .next (s.withJb (ended .good x.left (billed x.left) 0 0))) ∧
        (∀ m, m < size →
          exec (.burstEnd d (media m ++ [(next + m, .blank)])) s =
            .next (s.withJb (ended .blank m (billed m) 0 (g.current - size))) ∧
          (g.mirror = none ∨ g.readSide = .mirror →
            exec (.burstEnd d (media m ++ [(next + m, .unreadable)])) s =
              .next (s.withJb (ended .mediaError m (billed m) 0 (g.current - size)))) ∧
          ∀ n, g.mirror = some n → g.readSide = .primary → s.settings.dispatch = false → s.jb.reachable (n / 2) = true →
            x.preempt = none →
            exec (.burstEnd d (media m ++ [(next + m, .unreadable)])) s = .next (s.withJb (freed { q with
              segments := [{ grown size m (billed m) 0 g with
                current := g.current - m, state := .queued, readSide := .mirror }] })))) ∧
      (∀ m, m ≤ size → w.reached = (List.range m).map (fun i => .staged (f i)) ++ List.replicate (size - m) .nothing →
        ∀ media, (m = x.left → exec (.burstEnd d media) s = .next (s.withJb (ended .good m 0 m 0))) ∧
          (m < size → exec (.burstEnd d media) s = .next (s.withJb (ended .blank m 0 m (g.current - size))))) ∧
      (x.left ≤ 64 → w.reached = (List.range x.left).map (fun i => .cached (f i)) →
        (∀ i < x.left, (retainFind s.jb.retain g.surface ((next + i) / 16)).isSome) → ∀ media,
        exec (.burstEnd d media) s = .next (s.withJb fun j => { ended .good x.left 0 0 0 j with
          retain := (List.range x.left).foldl (fun c i => retainTouch c g.surface ((next + i) / 16)) j.retain })) ∧
      (g.htype = .retain → x.left ≤ 64 → g.current = g.count → 0 < g.count →
        let lines := (List.range ((g.first + g.count - 1) / 16 + 1 - g.first / 16)).map fun i => g.first / 16 + i
        w.reached = List.replicate x.left .platter ∨ ((∀ l ∈ lines, retainFind s.jb.retain g.surface l = none) ∧
          ∃ old : Nat → Block, w.reached = (List.range x.left).map fun i => .cached (old i)) →
        ∀ h : Nat → Block, (∀ i, f i = h (next + i)) →
        let all : List (Nat × MediaRead) :=
          lines.flatMap fun l => (List.range 16).map fun i => (16 * l + i, .data (h (16 * l + i)))
        (∀ l ∈ lines, (s.map.resolve g.surface (16 * l)).htype = .retain) →
        (∀ y, (s.jb.drive y).pass = none ∧ (s.jb.drive y).parked = none) →
        exec (.burstEnd d all) s = .next (s.withJb fun j => { ended .good x.left 0 0 0 j with
          retain := lines.foldl (fun c l => retainInstall c
            ⟨g.surface, l, (List.range 16).map fun i => h (16 * l + i)⟩) j.retain })))

/-- Bursts and verifies of a flush (R71, R72, R118 to R120).  Its last burst makes the line VERIFYING, a pending preemption
being withdrawn and considered once more for another victim (R60, R61); one with blocks left parks the remainder while the
drive takes the EXPRESS segment, the line staying FLUSHING (R61, R62; a pass within a gather line, of 16 blocks at most, leaves
none).  A failed verify before the third writes the side again, the line FLUSHING; the third pins the line and makes the
quarantine record, the seal mark unchanged; the last required verify moves the seal mark to the flush end and frees the line.
After a passed primary verify of a DUAL flush the drive places the order for the mirror platter, or, when it cannot reach it,
the flush rejoins the list with its primary side done (the step a QUEUED order shows: log entry 36).  The ends are stated for
no other work waiting and a drive with nothing else to do, which dwells. -/
def Obligations.FlushPassesSealOrQuarantine : Prop :=
  ∀ (s : State) (d : Fin 4) (w : Work) (p : Pass) (f : Flush) (l : GatherLine), s.powered = true →
    let x := s.jb.drive d
    x.work = some w → w.ref = .flush f.surface f.line → w.dropped = none → x.pass = some p →
    s.jb.flush f.surface = some f → s.jb.line f.surface f.line = some l → f.surface < 192 →
    let range := s.jb.flushRange f
    let onLines (h : GatherLine → GatherLine) : List GatherLine :=
      s.jb.lines.map fun y => if y.surface = f.surface && y.index = f.line then h y else y
    (x.state = .transfer → x.left ≤ 64 → x.preempt = none → ∀ media,
      exec (.burstEnd d media) s = .next (s.withJb fun j => { (j.onDrive d fun x =>
          { x with state := .verify, left := 0, lastUse := s.now }) with
        lines := onLines fun y => { y with state := .verifying } })) ∧
    (∀ r it, x.state = .transfer → x.preempt = some r → s.jb.itemOf (.request r) = some it →
      (64 < x.left → s.jb.eligible it.target d = true → ∀ m media, x.mounted = some m →
        ∃ t w', exec (.burstEnd d media) s = .next t ∧ (t.jb.drive d).work = some w' ∧ w'.ref = .request r ∧
          (t.jb.drive d).preempt = none ∧
          (t.jb.drive d).parked = some ⟨w.ref, w.level, m, range.2 - (x.left - 64), x.left - 64, x.pass⟩ ∧
          t.jb.flush f.surface = some { f with state := .parked } ∧ t.jb.lines = s.jb.lines) ∧
      (x.left ≤ 64 →
        let verifies (h : Jukebox → Jukebox) : Prop := ∀ media, exec (.burstEnd d media) s = .next (s.withJb fun j =>
          { h (j.onDrive d fun x => { x with state := .verify, left := 0, preempt := none, lastUse := s.now }) with
            lines := onLines fun y => { y with state := .verifying } })
        let mayPreempt : Prop := it.level = .express ∧ s.settings.preempt = true ∧ s.settings.dispatch = true ∧
          s.settings.enables .express = true
        let victim (y : Fin 4) : Prop := y ≠ d ∧ s.jb.victim it.target y = true
        (¬ mayPreempt ∨ (∀ y, ¬ victim y) → verifies id) ∧
        ∀ v, mayPreempt → victim v → (∀ y, victim y → (s.jb.drive y).left < (s.jb.drive v).left ∨
            ((s.jb.drive y).left = (s.jb.drive v).left ∧ v ≤ y)) →
          verifies fun j => j.onDrive v fun x => { x with preempt := some r })) ∧
    (x.state = .verify → l.attempts < 2 →
      exec (.verifyEnd d false) s = .next (s.withJb fun j => { (j.onDrive d fun x =>
          { x with
            state := .transfer, left := range.2 - range.1, pass := some ⟨p.side, l.attempts + 1⟩, lastUse := s.now }) with
        lines := onLines fun y => { y with state := .flushing, attempts := l.attempts + 1 } })) ∧
    (x.state = .verify → p.side = .primary → f.writeRoute = .dual → ∀ m, f.mirror = some m → x.mounted ≠ some m →
      s.jb.eligible m d = true → (∀ o ∈ s.jb.orders, o.drive ≠ d) → s.jb.picker.state ≠ .parked →
      exec (.verifyEnd d true) s = .next (s.withJb fun j => { ((j.onDrive d fun x =>
          { x with state := .ready, pass := some ⟨.mirror, p.failed⟩, left := range.2 - range.1, lastUse := s.now }).onFlush
            f.surface fun y => { y with primaryDone := true }) with
        lines := onLines fun y => { y with state := .flushing }
        orders := j.orders ++ [⟨d, if x.platter = some (m / 2) then .turnover else .exchange, x.platter, some (m / 2),
          some (if m % 2 = 0 then .a else .b), false, if x.platter = none then 4 else 1, .queued, false, false⟩] })) ∧
    (x.state = .verify → s.jb.table = [] → s.jb.flushes = [f] → x.parked = none → x.offlineFlag = false →
      (∀ o ∈ s.jb.orders, o.drive ≠ d) → 0 < s.settings.dwell →
      let freed (j : Jukebox) : Jukebox := j.onDrive d fun x =>
        { x with
          state := .ready, work := none, pass := none, left := 0, preempt := none, lastUse := s.now
          dwell := some (s.now + s.settings.dwell) }
      (2 ≤ l.attempts →
        exec (.verifyEnd d false) s = .next (s.withJb fun j => { ((freed j).onSurface f.surface fun r =>
            { r with quarantine := some ⟨f.line, p.side, 3⟩ }) with
          lines := onLines fun y => { y with state := .pinned, attempts := 3 }
          flushes := [] })) ∧
      (p.side = .mirror ∨ f.writeRoute = .primary ∨ f.mirror = none →
        (∀ y ∈ s.jb.lines, y.surface = f.surface → y.index = f.line ∨ y.due = none) →
        exec (.verifyEnd d true) s = .next (s.withJb fun j => { ((freed j).onSurface f.surface fun r =>
            { r with sealMark := range.2 }) with
          lines := j.lines.filter fun y => !(y.surface = f.surface && y.index = f.line)
          flushes := [] })) ∧
      (∀ m, p.side = .primary → f.writeRoute = .dual → f.mirror = some m → s.jb.eligible m d = false →
        s.settings.dispatch = false →
        exec (.verifyEnd d true) s = .next (s.withJb fun j => { freed j with
          lines := onLines fun y => { y with state := .flushing }
          flushes := [{ f with primaryDone := true, state := .queued }] })))

/-! ## Drive faults and eject attempts -/

/-- A drive faults at its spin-up limit, its spin-down limit, an eject not taken after its spin-down, and a hardware report in
any state but FAULT and OFFLINE (R75, R164).  Its mounted surface and dwell are cleared, the reason is recorded, and one eject
attempt of 10 s begins for a platter still inside, but after a failed eject the platter is held at once (R155).  The segments
it held and had parked are handed back (R151, R153): a request segment is QUEUED again with its attempt count raised, a write
carrying its progress (R152), and is DONE MEDIA ERROR the third time; the line of a flush is taken back and a new flush segment
made (R121); the cached lines of blocks an interrupted primary pass had written are discarded (R152), of a pass begun again
after a failed verify those written since (log entry 23).  The order naming the drive goes by the table of R154.  A spin-down
that completes with the eject taken leaves the platter at the mouth, where step 2, or inventory's grip, begins when the picker
stands there (R73, R78, R189); with the eject not taken the order in step 1 ends, and inventory goes on with its next drive.
Reports that do not apply change nothing (log entry 5).  A handed-back write has its whole count again (log entry 24), and a
move broken off leaves the picker's mark of that (log entry 17).  Stated with dispatch enable off or no work waiting, with the
order queue in its form (R77) and no other order behind one that leaves the picker idle, and for a held and a parked segment of
two requests. -/
def Obligations.DriveFaultsAreTaken : Prop :=
  ∀ (s : State) (d : Fin 4), s.powered = true → s.jb.TableWf → s.jb.OrdersWf →
    let x := s.jb.drive d
    let p := s.jb.picker
    let stands (y : Fin 4) : Prop := p.position = some (.drive y) ∧ p.midway = false
    let faulted (r : DriveReason) (tries : Bool) (x : Drive) : Drive := { x with
      state := .fault, mounted := none, dwell := none, work := none, pass := none, left := 0, preempt := none
      parked := none, reason := some r, clearing := false, ejecting := tries
      limit := if tries then some (s.now + 10000) else none }
    let tries := x.platter.isSome && !x.ejected
    let others := s.jb.orders.filter fun o => o.drive ≠ d
    -- the picker, when the order it had in hand has ended at the fault
    let stops (breaks : Prop) [Decidable breaks] : Picker := { p with
      midway := if breaks then true else p.midway
      state := if p.state = .busy ∧ p.recovering = false then .parked else p.state
      stepLimit := if p.state = .busy ∧ p.recovering = false then none else p.stepLimit }
    -- the retain lines a handed-back write pass discards
    let discards (g : Segment) (pass : Option Pass) (left : Nat) (j : Jukebox) : Jukebox :=
      if pass.any fun y => y.side = .primary then
        { j with retain := retainDiscard j.retain g.surface g.first (g.first + g.count - left) } else j
    -- what handing back a held or parked segment does
    let back (ref : WorkRef) (dropped : Option Segment) (pass : Option Pass) (left : Nat) (h : Jukebox → Jukebox) : Prop :=
      (∃ r g, ref = .request r ∧ dropped = some g ∧ h = discards g pass left) ∨
      (∃ r q g, ref = .request r ∧ dropped = none ∧ s.jb.segment r = some (q, g) ∧ q.state = .active ∧ g.attempts < 2 ∧
        s.settings.dispatch = false ∧ (q.kind = .read → s.jb.reachable (g.target .read / 2) = true) ∧
        h = fun j => (discards g pass left j).onSegment r fun g =>
          let again := { g with state := .queued, attempts := g.attempts + 1 }
          match pass with
          | none => again
          | some y => { again with failedVerify := y.failed, primaryDone := y.side = .mirror, current := g.count }) ∨
      (∃ r q g, ref = .request r ∧ dropped = none ∧ s.jb.segment r = some (q, g) ∧ q.state = .active ∧ 2 ≤ g.attempts ∧
        q.segments = [g] ∧ r.index = 0 ∧ h = fun j => { j with
          table := j.table.map fun y => if y.initiator = r.initiator && y.tag = r.tag then { q with
              state := .completing, status := .mediaError
              segments := [{ g with state := .done, status := .mediaError, kept := [] }]
              delivered := q.delivered + g.served, billable := q.billable + g.billable, staged := q.staged + g.staged } else y
          retain := (discards g pass left (if q.kind = .write then
            { j with retain := retainDiscard j.retain g.surface g.first (g.first + g.count) } else j)).retain
          bus := if g.kept = [] then j.bus else j.bus ++
            [.data r.initiator r.tag (q.window * 67108864 + g.surface * 262144 + g.first) g.kept] }) ∨
      (∃ n k l due, ref = .flush n k ∧ s.settings.dispatch = false ∧ s.jb.NoIntake ∧
        (s.jb.lines.find? fun y => y.surface = n) = some l ∧ l.index = k ∧ l.due = some due ∧
        s.jb.line n k = some l ∧ (s.jb.surface n).condition = .known ∧ (s.jb.surface n).quarantine = none ∧
        h = fun j => { j with
          lines := j.lines.map fun y => if y.surface = n && y.index = k then { y with state := .filling } else y
          flushes := insertFlush
            ⟨n, k, (s.map.resolve n 0).writeRoute, (s.map.resolve n 0).mirror, due, .queued, none, false⟩
            (j.flushes.filter fun y => y.surface != n) })
    let handed (h : Jukebox → Jukebox) : Prop := ∃ h₁ h₂, h = h₂ ∘ h₁ ∧
      (match x.work with
        | none => h₁ = id
        | some w => back w.ref w.dropped x.pass x.left h₁) ∧
      (match x.parked with
        | none => h₂ = id
        | some c => back c.ref none c.pass c.remaining h₂) ∧
      ∀ w c, x.work = some w → x.parked = some c → match w.ref, c.ref with
        | .request a, .request b => (a.initiator, a.tag) ≠ (b.initiator, b.tag)
        | .flush _ _, .flush _ _ => False
        | _, _ => True
    -- what becomes of the order naming the drive (R154), but for the eject of step 1 that is not taken
    let ordered (f : Jukebox → Jukebox) : Prop := match s.jb.orderOf d with
      | none => f = id
      | some o =>
        let homeward (y : Order) : Order := { y with kind := .returnHome, incoming := none, wanted := none, express := false }
        let changed (h : Order → Order) : List Order := s.jb.orders.map fun y => if y.drive = d then h y else y
        (o.state = .queued ∧ f = fun j => { j with orders := others }) ∨
        (o.state ≠ .queued ∧ o.step ≤ 3 ∧ f = fun j => { j with orders := changed homeward }) ∨
        (o.state ≠ .queued ∧ o.step = 4 ∧ others = [] ∧ f = fun j => { j with orders := [], picker := stops True }) ∨
        (o.state ≠ .queued ∧ 5 ≤ o.step ∧ f = fun j => { j with
          orders := changed fun y => { homeward y with
            outgoing := if o.kind = .returnHome then y.outgoing else y.incoming, step := if o.step = 5 then 5 else 3 }
          picker := if o.step = 5 ∨ o.state ≠ .running then p else { p with
            stepLimit := if p.state = .busy ∨ p.state = .inventory then some (s.now + 15000) else none } })
    let calm := s.settings.dispatch = false ∨ s.jb.NoWork
    (x.state ≠ .loading → exec (.spinUpLimit d) s = .next s.fresh) ∧
    (x.state ≠ .unloading ∨ x.ejected = true → exec (.spinDownLimit d) s = .next s.fresh ∧
      ∀ b, exec (.spinDownComplete d b) s = .next s.fresh) ∧
    (x.state = .fault ∨ x.state = .offline → exec (.driveHardwareReport d) s = .next s.fresh) ∧
    (∀ h f, calm → handed h → ordered f →
      let faults (c : Instr) (r : DriveReason) : Prop :=
        exec c s = .next (s.withJb fun j => f (h (j.onDrive d (faulted r tries))))
      (x.state = .loading → faults (.spinUpLimit d) .spinUpLimit) ∧
      (x.state = .unloading → x.ejected = false → faults (.spinDownLimit d) .spinDownLimit) ∧
      (x.state ≠ .fault → x.state ≠ .offline → faults (.driveHardwareReport d) .hardware)) ∧
    (x.state = .unloading → x.ejected = false →
      let mouth (j : Jukebox) : Jukebox := j.onDrive d fun x => { x with ejected := true, limit := none }
      (∀ o rest, s.jb.orders = o :: rest → o.drive = d → o.state = .running → o.step = 1 → (∀ y ∈ rest, y.drive ≠ d) →
        stands d → p.state = .busy → p.inventory = none →
        exec (.spinDownComplete d true) s = .next (s.withJb fun j => { mouth j with
          orders := { o with step := 2 } :: rest, picker := { p with stepLimit := some (s.now + 15000) } })) ∧
      (stands d → p.state = .inventory → p.inventory = some (.driveUnload d) → s.jb.orders = [] →
        exec (.spinDownComplete d true) s = .next (s.withJb fun j => { mouth j with
          picker := { p with inventory := some (.driveGrip d), stepLimit := some (s.now + 15000) } })) ∧
      ((∀ o, s.jb.orders.head? = some o → o.state = .running → o.step = 1 → ¬ stands o.drive) →
        (∀ y, p.inventory = some (.driveUnload y) → p.state = .inventory → ¬ stands y) →
        exec (.spinDownComplete d true) s = .next (s.withJb mouth)) ∧
      ∀ k, x.platter = some k →
        let heldThere (j : Jukebox) : Jukebox := (j.onDrive d (faulted .eject false)).onPlatter k fun r =>
          { r with present := true, location := some (.drive d), held := true }
        (∀ h o, calm → handed h → s.jb.orders = [o] → o.drive = d → o.state ≠ .queued → o.step = 1 → p.inventory = none →
          (∀ q ∈ s.jb.table, ∀ g ∈ q.segments, q.kind = .read → g.state ≠ .done →
            s.jb.reachable (g.target .read / 2) = true ∧ g.target .read / 2 ≠ k) →
          exec (.spinDownComplete d false) s = .next (s.withJb fun j => { h (heldThere j) with
            orders := [], picker := stops (p.position ≠ some (.drive d) ∨ p.midway = true) })) ∧
        (p.state = .inventory → p.inventory = some (.driveUnload d) → s.jb.orders = [] → x.work = none → x.parked = none →
          calm →
          exec (.spinDownComplete d false) s = .next (s.withJb fun j => { heldThere j with
            picker := { p with
              inventory := some (match [0, 1, 2, 3].find? fun (y : Fin 4) =>
                  decide (d < y) && (s.jb.drive y).platter.isSome && (s.jb.drive y).reason != some .orphan with
                | some y => .driveCheck y
                | none => .slot 0)
              stepLimit := some (s.now + 15000) } })))

/-- The eject attempt of a faulted drive ends at its report or its 10 s limit (R155).  Taken, the platter waits at the mouth
and a RETURN HOME is placed at the tail of the queue, showing step 1 (log entry 36); for an attempt of CLEAR DRIVE the platter
is held no more (R157).  Not taken, the platter is held, or stays so.  Where no attempt runs a report changes nothing (log
entry 5). -/
def Obligations.EjectAttemptEnds : Prop :=
  ∀ (s : State) (d : Fin 4) (k : Nat), s.powered = true →
    let x := s.jb.drive d
    let fails : List Instr := [.ejectAttemptReport d false, .ejectAttemptLimit d]
    let failed (j : Jukebox) : Jukebox := j.onDrive d fun x =>
      { x with ejecting := false, lastEject := some .notTaken, limit := none, clearing := false }
    (x.state ≠ .fault ∨ x.ejecting = false →
      ∀ c ∈ Instr.ejectAttemptReport d true :: fails, exec c s = .next s.fresh) ∧
    (x.state = .fault → x.ejecting = true → x.platter = some k → (∀ o ∈ s.jb.orders, o.drive ≠ d) →
      s.jb.picker.inventory = none →
      (x.clearing = true → ∀ c ∈ fails, exec c s = .next (s.withJb failed)) ∧
      (x.clearing = false → s.jb.table = [] → ∀ c ∈ fails, exec c s = .next (s.withJb fun j =>
        (failed j).onPlatter k fun r => { r with present := true, location := some (.drive d), held := true })) ∧
      (s.jb.picker.state ≠ .parked → s.jb.NoIntake →
        exec (.ejectAttemptReport d true) s = .next (s.withJb fun j => { ((j.onDrive d fun x =>
            { x with ejecting := false, lastEject := some .taken, ejected := true, limit := none }).onPlatter k fun r =>
              if x.clearing then { r with held := false } else r) with
          orders := j.orders ++ [⟨d, .returnHome, some k, none, none, false, 1, .queued, false, false⟩] })))

/-! ## Power and the battery -/

/-- Power (R184 to R187).  A power-on empties the request table, the lists, the order queue and the retain cache, clears the
lock level and the response records, and starts every drive and the picker as they report.  A warm start keeps the store, with
lines in a flush FILLING and due again and a deferred update taken; a cold start gives every stored item its cold-start value.
A power loss keeps the store and running time.  With no platter anywhere but in slots a cold start is the state after reset
(log entry 8).  That a power loss clears at once what no battery keeps, the table, the retain cache and the counts, and that a
POWER_ON of a running part is a loss and a power-on, are log entry 6's choices. -/
def Obligations.PowerOnAndLoss : Prop :=
  (∀ (s : State) (good isOpen : Bool) (grip d0 d1 d2 d3 : Option Nat),
    ∃ t, exec (.powerOn good isOpen grip d0 d1 d2 d3) s = .next t ∧
      t.powered = true ∧ t.batteryLow = !good ∧ t.pending = s.pending ∧
      t.jb.table = [] ∧ t.jb.orders = [] ∧ t.jb.retain = [] ∧ t.jb.lastTier = .backOffice ∧
      t.control.lock = 0 ∧ t.control.responses = Vector.replicate 7 ⟨0, .done, .none, 0⟩ ∧
      t.jb.picker.gripped = grip ∧ t.jb.picker.position = none ∧ t.jb.picker.reason = none ∧
      t.jb.picker.inventory.isSome = true ∧
      t.jb.picker.state = (if isOpen then .halted else .inventory) ∧
      t.jb.picker.door = (if isOpen then .opened else .closed) ∧
      (∀ p : Fin 96, t.jb.platters[p].present = false ∧ t.jb.platters[p].location = none ∧
        t.jb.platters[p].held = false ∧ t.jb.platters[p].misfile = none ∧
        t.jb.platters[p].orientation = if good then s.jb.platters[p].orientation else .a) ∧
      (∀ d : Fin 4, let v := [d0, d1, d2, d3].getD d none
        (t.jb.drive d).mounted = v ∧ (t.jb.drive d).platter = v.map (fun n => n / 2) ∧
        (t.jb.drive d).state = (if v = none then .empty else .ready) ∧ (t.jb.drive d).work = none ∧
        (t.jb.drive d).parked = none ∧ (t.jb.drive d).dwell = none ∧ (t.jb.drive d).preempt = none ∧
        (t.jb.drive d).lastUse = 0 ∧ (t.jb.drive d).offlineFlag = false ∧ (t.jb.drive d).reason = none) ∧
      (good = true →
        t.now = s.now ∧ t.map = s.map ∧ t.settings = s.settings ∧ t.control.members = s.control.members ∧
        t.fee = s.fee.cleared ∧ t.jb.surfaces = s.jb.surfaces ∧
        t.jb.lines = s.jb.lines.map fun l =>
          if l.state = .flushing ∨ l.state = .verifying then
            { l with state := .filling, due := some (l.due.getD s.now) } else l) ∧
      (good = false →
        t.now = 0 ∧ t.map = VolumeMap.cold ∧ t.settings = Settings.cold ∧ t.control.members = 1 ∧
        t.fee = FeeUnit.cold ∧ t.jb.lines = [] ∧ t.jb.flushes = [] ∧
        ∀ n, t.jb.surface n = ⟨262144, 262144, .unknown, none⟩)) ∧
  (∀ s : State, exec (.powerOn false false none none none none none) s = .next { State.reset with pending := s.pending }) ∧
  ∀ s : State, s.powered = true → ∃ t, exec .powerLoss s = .next t ∧ t.powered = false ∧ t.now = s.now ∧ t.map = s.map ∧
    t.settings = s.settings ∧ t.control.members = s.control.members ∧
    t.fee = { s.fee with activeCount := 0, previousCount := 0 } ∧ t.jb.surfaces = s.jb.surfaces ∧ t.jb.lines = s.jb.lines ∧
    (∀ p : Fin 96, t.jb.platters[p].orientation = s.jb.platters[p].orientation) ∧ t.jb.table = [] ∧ t.jb.retain = []

/-- Battery-low mode (R126, R127, R192).  A fall turns it on and makes every FILLING line due; a rise turns it off and ends
GOOD every GATHER segment of an ACTIVE WRITE that still awaits sealing, rolls the statuses of the ACTIVE requests up, completes
those with nothing else to wait for (R37), and leaves every other request as it was.  A fall while it is on
and a rise while it is off change nothing. -/
def Obligations.BatteryLowMode : Prop :=
  ∀ s : State, s.powered = true →
    (s.batteryLow = true → exec .batteryGoodFall s = .next s.fresh) ∧
    (s.batteryLow = false → exec .batteryGoodRise s = .next s.fresh) ∧
    (s.batteryLow = false → ∃ t, exec .batteryGoodFall s = .next t ∧ t.batteryLow = true ∧ t.map = s.map ∧
      t.settings = s.settings ∧ t.control = s.control ∧ t.fee = s.fee ∧ t.jb.surfaces = s.jb.surfaces ∧
      t.jb.platters = s.jb.platters ∧ t.jb.retain = s.jb.retain ∧
      t.jb.lines.map GatherLine.contents = s.jb.lines.map fun l =>
        (if l.state = .filling ∧ l.due = none then { l with due := some s.now } else l).contents) ∧
    (s.batteryLow = true → exec .batteryGoodRise s = .next { s with batteryLow := false, jb := { s.jb with
      bus := []
      table := s.jb.table.map fun q =>
        let segments := q.segments.map fun g =>
          if q.kind = .write ∧ g.htype = .gather ∧ g.state = .queued then
            { g with state := .done, status := .good, current := 0, kept := [] }
          else g
        if q.state = .active then { q with
          segments := segments
          status := match segments.find? fun g => g.state = .done && g.status != .good with
            | some g => g.status
            | none => .good
          state := if segments.all fun g => g.state = .done then .completing else .active }
        else q } })
end

