-- ==== Sys2Proof/Laws/State.lean ====
section
/-! SUPPORT. One lemma per field per update of the state, true by unfolding, so that no proof unfolds a record update. -/

namespace Sys2Proof.Machine

section
variable (j : Jukebox)

@[simp] theorem onRequest_lastTier (i : Fin 7) (t : Fin 8) (f : Request → Request) : (j.onRequest i t f).lastTier = j.lastTier := rfl
@[simp] theorem onRequest_drives (i : Fin 7) (t : Fin 8) (f : Request → Request) : (j.onRequest i t f).drives = j.drives := rfl
@[simp] theorem onRequest_picker (i : Fin 7) (t : Fin 8) (f : Request → Request) : (j.onRequest i t f).picker = j.picker := rfl
@[simp] theorem onRequest_orders (i : Fin 7) (t : Fin 8) (f : Request → Request) : (j.onRequest i t f).orders = j.orders := rfl
@[simp] theorem onRequest_platters (i : Fin 7) (t : Fin 8) (f : Request → Request) : (j.onRequest i t f).platters = j.platters := rfl
@[simp] theorem onRequest_surfaces (i : Fin 7) (t : Fin 8) (f : Request → Request) : (j.onRequest i t f).surfaces = j.surfaces := rfl
@[simp] theorem onRequest_lines (i : Fin 7) (t : Fin 8) (f : Request → Request) : (j.onRequest i t f).lines = j.lines := rfl
@[simp] theorem onRequest_flushes (i : Fin 7) (t : Fin 8) (f : Request → Request) : (j.onRequest i t f).flushes = j.flushes := rfl
@[simp] theorem onRequest_retain (i : Fin 7) (t : Fin 8) (f : Request → Request) : (j.onRequest i t f).retain = j.retain := rfl
@[simp] theorem onRequest_bus (i : Fin 7) (t : Fin 8) (f : Request → Request) : (j.onRequest i t f).bus = j.bus := rfl

@[simp] theorem onSegment_lastTier (r : SegRef) (f : Segment → Segment) : (j.onSegment r f).lastTier = j.lastTier := rfl
@[simp] theorem onSegment_drives (r : SegRef) (f : Segment → Segment) : (j.onSegment r f).drives = j.drives := rfl
@[simp] theorem onSegment_picker (r : SegRef) (f : Segment → Segment) : (j.onSegment r f).picker = j.picker := rfl
@[simp] theorem onSegment_orders (r : SegRef) (f : Segment → Segment) : (j.onSegment r f).orders = j.orders := rfl
@[simp] theorem onSegment_platters (r : SegRef) (f : Segment → Segment) : (j.onSegment r f).platters = j.platters := rfl
@[simp] theorem onSegment_surfaces (r : SegRef) (f : Segment → Segment) : (j.onSegment r f).surfaces = j.surfaces := rfl
@[simp] theorem onSegment_lines (r : SegRef) (f : Segment → Segment) : (j.onSegment r f).lines = j.lines := rfl
@[simp] theorem onSegment_flushes (r : SegRef) (f : Segment → Segment) : (j.onSegment r f).flushes = j.flushes := rfl
@[simp] theorem onSegment_retain (r : SegRef) (f : Segment → Segment) : (j.onSegment r f).retain = j.retain := rfl
@[simp] theorem onSegment_bus (r : SegRef) (f : Segment → Segment) : (j.onSegment r f).bus = j.bus := rfl

@[simp] theorem onDrive_table (d : Fin 4) (f : Drive → Drive) : (j.onDrive d f).table = j.table := rfl
@[simp] theorem onDrive_lastTier (d : Fin 4) (f : Drive → Drive) : (j.onDrive d f).lastTier = j.lastTier := rfl
@[simp] theorem onDrive_picker (d : Fin 4) (f : Drive → Drive) : (j.onDrive d f).picker = j.picker := rfl
@[simp] theorem onDrive_orders (d : Fin 4) (f : Drive → Drive) : (j.onDrive d f).orders = j.orders := rfl
@[simp] theorem onDrive_platters (d : Fin 4) (f : Drive → Drive) : (j.onDrive d f).platters = j.platters := rfl
@[simp] theorem onDrive_surfaces (d : Fin 4) (f : Drive → Drive) : (j.onDrive d f).surfaces = j.surfaces := rfl
@[simp] theorem onDrive_lines (d : Fin 4) (f : Drive → Drive) : (j.onDrive d f).lines = j.lines := rfl
@[simp] theorem onDrive_flushes (d : Fin 4) (f : Drive → Drive) : (j.onDrive d f).flushes = j.flushes := rfl
@[simp] theorem onDrive_retain (d : Fin 4) (f : Drive → Drive) : (j.onDrive d f).retain = j.retain := rfl
@[simp] theorem onDrive_bus (d : Fin 4) (f : Drive → Drive) : (j.onDrive d f).bus = j.bus := rfl

@[simp] theorem onPicker_table (f : Picker → Picker) : (j.onPicker f).table = j.table := rfl
@[simp] theorem onPicker_lastTier (f : Picker → Picker) : (j.onPicker f).lastTier = j.lastTier := rfl
@[simp] theorem onPicker_drives (f : Picker → Picker) : (j.onPicker f).drives = j.drives := rfl
@[simp] theorem onPicker_orders (f : Picker → Picker) : (j.onPicker f).orders = j.orders := rfl
@[simp] theorem onPicker_platters (f : Picker → Picker) : (j.onPicker f).platters = j.platters := rfl
@[simp] theorem onPicker_surfaces (f : Picker → Picker) : (j.onPicker f).surfaces = j.surfaces := rfl
@[simp] theorem onPicker_lines (f : Picker → Picker) : (j.onPicker f).lines = j.lines := rfl
@[simp] theorem onPicker_flushes (f : Picker → Picker) : (j.onPicker f).flushes = j.flushes := rfl
@[simp] theorem onPicker_retain (f : Picker → Picker) : (j.onPicker f).retain = j.retain := rfl
@[simp] theorem onPicker_bus (f : Picker → Picker) : (j.onPicker f).bus = j.bus := rfl

@[simp] theorem onPlatter_table (p : Nat) (f : Platter → Platter) : (j.onPlatter p f).table = j.table := rfl
@[simp] theorem onPlatter_lastTier (p : Nat) (f : Platter → Platter) : (j.onPlatter p f).lastTier = j.lastTier := rfl
@[simp] theorem onPlatter_drives (p : Nat) (f : Platter → Platter) : (j.onPlatter p f).drives = j.drives := rfl
@[simp] theorem onPlatter_picker (p : Nat) (f : Platter → Platter) : (j.onPlatter p f).picker = j.picker := rfl
@[simp] theorem onPlatter_orders (p : Nat) (f : Platter → Platter) : (j.onPlatter p f).orders = j.orders := rfl
@[simp] theorem onPlatter_surfaces (p : Nat) (f : Platter → Platter) : (j.onPlatter p f).surfaces = j.surfaces := rfl
@[simp] theorem onPlatter_lines (p : Nat) (f : Platter → Platter) : (j.onPlatter p f).lines = j.lines := rfl
@[simp] theorem onPlatter_flushes (p : Nat) (f : Platter → Platter) : (j.onPlatter p f).flushes = j.flushes := rfl
@[simp] theorem onPlatter_retain (p : Nat) (f : Platter → Platter) : (j.onPlatter p f).retain = j.retain := rfl
@[simp] theorem onPlatter_bus (p : Nat) (f : Platter → Platter) : (j.onPlatter p f).bus = j.bus := rfl

@[simp] theorem onOrder_table (d : Fin 4) (f : Order → Order) : (j.onOrder d f).table = j.table := rfl
@[simp] theorem onOrder_lastTier (d : Fin 4) (f : Order → Order) : (j.onOrder d f).lastTier = j.lastTier := rfl
@[simp] theorem onOrder_drives (d : Fin 4) (f : Order → Order) : (j.onOrder d f).drives = j.drives := rfl
@[simp] theorem onOrder_picker (d : Fin 4) (f : Order → Order) : (j.onOrder d f).picker = j.picker := rfl
@[simp] theorem onOrder_platters (d : Fin 4) (f : Order → Order) : (j.onOrder d f).platters = j.platters := rfl
@[simp] theorem onOrder_surfaces (d : Fin 4) (f : Order → Order) : (j.onOrder d f).surfaces = j.surfaces := rfl
@[simp] theorem onOrder_lines (d : Fin 4) (f : Order → Order) : (j.onOrder d f).lines = j.lines := rfl
@[simp] theorem onOrder_flushes (d : Fin 4) (f : Order → Order) : (j.onOrder d f).flushes = j.flushes := rfl
@[simp] theorem onOrder_retain (d : Fin 4) (f : Order → Order) : (j.onOrder d f).retain = j.retain := rfl
@[simp] theorem onOrder_bus (d : Fin 4) (f : Order → Order) : (j.onOrder d f).bus = j.bus := rfl

@[simp] theorem onSurface_table (n : Nat) (f : SurfaceRec → SurfaceRec) : (j.onSurface n f).table = j.table := rfl
@[simp] theorem onSurface_lastTier (n : Nat) (f : SurfaceRec → SurfaceRec) : (j.onSurface n f).lastTier = j.lastTier := rfl
@[simp] theorem onSurface_drives (n : Nat) (f : SurfaceRec → SurfaceRec) : (j.onSurface n f).drives = j.drives := rfl
@[simp] theorem onSurface_picker (n : Nat) (f : SurfaceRec → SurfaceRec) : (j.onSurface n f).picker = j.picker := rfl
@[simp] theorem onSurface_orders (n : Nat) (f : SurfaceRec → SurfaceRec) : (j.onSurface n f).orders = j.orders := rfl
@[simp] theorem onSurface_platters (n : Nat) (f : SurfaceRec → SurfaceRec) : (j.onSurface n f).platters = j.platters := rfl
@[simp] theorem onSurface_lines (n : Nat) (f : SurfaceRec → SurfaceRec) : (j.onSurface n f).lines = j.lines := rfl
@[simp] theorem onSurface_flushes (n : Nat) (f : SurfaceRec → SurfaceRec) : (j.onSurface n f).flushes = j.flushes := rfl
@[simp] theorem onSurface_retain (n : Nat) (f : SurfaceRec → SurfaceRec) : (j.onSurface n f).retain = j.retain := rfl
@[simp] theorem onSurface_bus (n : Nat) (f : SurfaceRec → SurfaceRec) : (j.onSurface n f).bus = j.bus := rfl

@[simp] theorem onLine_table (n k : Nat) (f : GatherLine → GatherLine) : (j.onLine n k f).table = j.table := rfl
@[simp] theorem onLine_lastTier (n k : Nat) (f : GatherLine → GatherLine) : (j.onLine n k f).lastTier = j.lastTier := rfl
@[simp] theorem onLine_drives (n k : Nat) (f : GatherLine → GatherLine) : (j.onLine n k f).drives = j.drives := rfl
@[simp] theorem onLine_picker (n k : Nat) (f : GatherLine → GatherLine) : (j.onLine n k f).picker = j.picker := rfl
@[simp] theorem onLine_orders (n k : Nat) (f : GatherLine → GatherLine) : (j.onLine n k f).orders = j.orders := rfl
@[simp] theorem onLine_platters (n k : Nat) (f : GatherLine → GatherLine) : (j.onLine n k f).platters = j.platters := rfl
@[simp] theorem onLine_surfaces (n k : Nat) (f : GatherLine → GatherLine) : (j.onLine n k f).surfaces = j.surfaces := rfl
@[simp] theorem onLine_flushes (n k : Nat) (f : GatherLine → GatherLine) : (j.onLine n k f).flushes = j.flushes := rfl
@[simp] theorem onLine_retain (n k : Nat) (f : GatherLine → GatherLine) : (j.onLine n k f).retain = j.retain := rfl
@[simp] theorem onLine_bus (n k : Nat) (f : GatherLine → GatherLine) : (j.onLine n k f).bus = j.bus := rfl

@[simp] theorem freeLine_table (n k : Nat) : (j.freeLine n k).table = j.table := rfl
@[simp] theorem freeLine_lastTier (n k : Nat) : (j.freeLine n k).lastTier = j.lastTier := rfl
@[simp] theorem freeLine_drives (n k : Nat) : (j.freeLine n k).drives = j.drives := rfl
@[simp] theorem freeLine_picker (n k : Nat) : (j.freeLine n k).picker = j.picker := rfl
@[simp] theorem freeLine_orders (n k : Nat) : (j.freeLine n k).orders = j.orders := rfl
@[simp] theorem freeLine_platters (n k : Nat) : (j.freeLine n k).platters = j.platters := rfl
@[simp] theorem freeLine_surfaces (n k : Nat) : (j.freeLine n k).surfaces = j.surfaces := rfl
@[simp] theorem freeLine_flushes (n k : Nat) : (j.freeLine n k).flushes = j.flushes := rfl
@[simp] theorem freeLine_retain (n k : Nat) : (j.freeLine n k).retain = j.retain := rfl
@[simp] theorem freeLine_bus (n k : Nat) : (j.freeLine n k).bus = j.bus := rfl

@[simp] theorem onFlush_table (n : Nat) (f : Flush → Flush) : (j.onFlush n f).table = j.table := rfl
@[simp] theorem onFlush_lastTier (n : Nat) (f : Flush → Flush) : (j.onFlush n f).lastTier = j.lastTier := rfl
@[simp] theorem onFlush_drives (n : Nat) (f : Flush → Flush) : (j.onFlush n f).drives = j.drives := rfl
@[simp] theorem onFlush_picker (n : Nat) (f : Flush → Flush) : (j.onFlush n f).picker = j.picker := rfl
@[simp] theorem onFlush_orders (n : Nat) (f : Flush → Flush) : (j.onFlush n f).orders = j.orders := rfl
@[simp] theorem onFlush_platters (n : Nat) (f : Flush → Flush) : (j.onFlush n f).platters = j.platters := rfl
@[simp] theorem onFlush_surfaces (n : Nat) (f : Flush → Flush) : (j.onFlush n f).surfaces = j.surfaces := rfl
@[simp] theorem onFlush_lines (n : Nat) (f : Flush → Flush) : (j.onFlush n f).lines = j.lines := rfl
@[simp] theorem onFlush_retain (n : Nat) (f : Flush → Flush) : (j.onFlush n f).retain = j.retain := rfl
@[simp] theorem onFlush_bus (n : Nat) (f : Flush → Flush) : (j.onFlush n f).bus = j.bus := rfl

@[simp] theorem dropFlush_table (n : Nat) : (j.dropFlush n).table = j.table := rfl
@[simp] theorem dropFlush_lastTier (n : Nat) : (j.dropFlush n).lastTier = j.lastTier := rfl
@[simp] theorem dropFlush_drives (n : Nat) : (j.dropFlush n).drives = j.drives := rfl
@[simp] theorem dropFlush_picker (n : Nat) : (j.dropFlush n).picker = j.picker := rfl
@[simp] theorem dropFlush_orders (n : Nat) : (j.dropFlush n).orders = j.orders := rfl
@[simp] theorem dropFlush_platters (n : Nat) : (j.dropFlush n).platters = j.platters := rfl
@[simp] theorem dropFlush_surfaces (n : Nat) : (j.dropFlush n).surfaces = j.surfaces := rfl
@[simp] theorem dropFlush_lines (n : Nat) : (j.dropFlush n).lines = j.lines := rfl
@[simp] theorem dropFlush_retain (n : Nat) : (j.dropFlush n).retain = j.retain := rfl
@[simp] theorem dropFlush_bus (n : Nat) : (j.dropFlush n).bus = j.bus := rfl

@[simp] theorem send_table (m : BusMsg) : (j.send m).table = j.table := rfl
@[simp] theorem send_lastTier (m : BusMsg) : (j.send m).lastTier = j.lastTier := rfl
@[simp] theorem send_drives (m : BusMsg) : (j.send m).drives = j.drives := rfl
@[simp] theorem send_picker (m : BusMsg) : (j.send m).picker = j.picker := rfl
@[simp] theorem send_orders (m : BusMsg) : (j.send m).orders = j.orders := rfl
@[simp] theorem send_platters (m : BusMsg) : (j.send m).platters = j.platters := rfl
@[simp] theorem send_surfaces (m : BusMsg) : (j.send m).surfaces = j.surfaces := rfl
@[simp] theorem send_lines (m : BusMsg) : (j.send m).lines = j.lines := rfl
@[simp] theorem send_flushes (m : BusMsg) : (j.send m).flushes = j.flushes := rfl
@[simp] theorem send_retain (m : BusMsg) : (j.send m).retain = j.retain := rfl

@[simp] theorem onPicker_picker (f : Picker → Picker) : (j.onPicker f).picker = f j.picker := rfl
@[simp] theorem send_bus (m : BusMsg) : (j.send m).bus = j.bus ++ [m] := rfl

/-- The record of a drive after a change of it. -/
@[simp] theorem onDrive_drive_self (d : Fin 4) (f : Drive → Drive) : (j.onDrive d f).drive d = f (j.drive d) := by
  simp [Jukebox.onDrive, Jukebox.drive]

/-- The record of another drive after a change of one. -/
theorem onDrive_drive_ne {d x : Fin 4} (h : x ≠ d) (f : Drive → Drive) : (j.onDrive d f).drive x = j.drive x := by
  have : d.val ≠ x.val := fun e => h (Fin.ext e.symm)
  simp [Jukebox.onDrive, Jukebox.drive, this]

/-- The records of the drives after a change of one. -/
theorem onDrive_drive (d x : Fin 4) (f : Drive → Drive) :
    (j.onDrive d f).drive x = if x = d then f (j.drive d) else j.drive x := by
  split
  · next h => subst h; simp
  · next h => exact onDrive_drive_ne j h f

end

section
variable (j : Jukebox)

@[simp] theorem onRequest_drive (i : Fin 7) (t : Fin 8) (f : Request → Request) (x : Fin 4) : (j.onRequest i t f).drive x = j.drive x := rfl
@[simp] theorem onSegment_drive (r : SegRef) (f : Segment → Segment) (x : Fin 4) : (j.onSegment r f).drive x = j.drive x := rfl
@[simp] theorem onPicker_drive (f : Picker → Picker) (x : Fin 4) : (j.onPicker f).drive x = j.drive x := rfl
@[simp] theorem onPlatter_drive (p : Nat) (f : Platter → Platter) (x : Fin 4) : (j.onPlatter p f).drive x = j.drive x := rfl
@[simp] theorem onOrder_drive (d : Fin 4) (f : Order → Order) (x : Fin 4) : (j.onOrder d f).drive x = j.drive x := rfl
@[simp] theorem onSurface_drive (n : Nat) (f : SurfaceRec → SurfaceRec) (x : Fin 4) : (j.onSurface n f).drive x = j.drive x := rfl
@[simp] theorem onLine_drive (n k : Nat) (f : GatherLine → GatherLine) (x : Fin 4) : (j.onLine n k f).drive x = j.drive x := rfl
@[simp] theorem freeLine_drive (n k : Nat) (x : Fin 4) : (j.freeLine n k).drive x = j.drive x := rfl
@[simp] theorem onFlush_drive (n : Nat) (f : Flush → Flush) (x : Fin 4) : (j.onFlush n f).drive x = j.drive x := rfl
@[simp] theorem dropFlush_drive (n : Nat) (x : Fin 4) : (j.dropFlush n).drive x = j.drive x := rfl
@[simp] theorem send_drive (m : BusMsg) (x : Fin 4) : (j.send m).drive x = j.drive x := rfl
@[simp] theorem onRequest_platter (i : Fin 7) (t : Fin 8) (f : Request → Request) (x : Nat) : (j.onRequest i t f).platter x = j.platter x := rfl
@[simp] theorem onSegment_platter (r : SegRef) (f : Segment → Segment) (x : Nat) : (j.onSegment r f).platter x = j.platter x := rfl
@[simp] theorem onDrive_platter (d : Fin 4) (f : Drive → Drive) (x : Nat) : (j.onDrive d f).platter x = j.platter x := rfl
@[simp] theorem onPicker_platter (f : Picker → Picker) (x : Nat) : (j.onPicker f).platter x = j.platter x := rfl
@[simp] theorem onOrder_platter (d : Fin 4) (f : Order → Order) (x : Nat) : (j.onOrder d f).platter x = j.platter x := rfl
@[simp] theorem onSurface_platter (n : Nat) (f : SurfaceRec → SurfaceRec) (x : Nat) : (j.onSurface n f).platter x = j.platter x := rfl
@[simp] theorem onLine_platter (n k : Nat) (f : GatherLine → GatherLine) (x : Nat) : (j.onLine n k f).platter x = j.platter x := rfl
@[simp] theorem freeLine_platter (n k : Nat) (x : Nat) : (j.freeLine n k).platter x = j.platter x := rfl
@[simp] theorem onFlush_platter (n : Nat) (f : Flush → Flush) (x : Nat) : (j.onFlush n f).platter x = j.platter x := rfl
@[simp] theorem dropFlush_platter (n : Nat) (x : Nat) : (j.dropFlush n).platter x = j.platter x := rfl
@[simp] theorem send_platter (m : BusMsg) (x : Nat) : (j.send m).platter x = j.platter x := rfl
@[simp] theorem onRequest_surface (i : Fin 7) (t : Fin 8) (f : Request → Request) (x : Nat) : (j.onRequest i t f).surface x = j.surface x := rfl
@[simp] theorem onSegment_surface (r : SegRef) (f : Segment → Segment) (x : Nat) : (j.onSegment r f).surface x = j.surface x := rfl
@[simp] theorem onDrive_surface (d : Fin 4) (f : Drive → Drive) (x : Nat) : (j.onDrive d f).surface x = j.surface x := rfl
@[simp] theorem onPicker_surface (f : Picker → Picker) (x : Nat) : (j.onPicker f).surface x = j.surface x := rfl
@[simp] theorem onPlatter_surface (p : Nat) (f : Platter → Platter) (x : Nat) : (j.onPlatter p f).surface x = j.surface x := rfl
@[simp] theorem onOrder_surface (d : Fin 4) (f : Order → Order) (x : Nat) : (j.onOrder d f).surface x = j.surface x := rfl
@[simp] theorem onLine_surface (n k : Nat) (f : GatherLine → GatherLine) (x : Nat) : (j.onLine n k f).surface x = j.surface x := rfl
@[simp] theorem freeLine_surface (n k : Nat) (x : Nat) : (j.freeLine n k).surface x = j.surface x := rfl
@[simp] theorem onFlush_surface (n : Nat) (f : Flush → Flush) (x : Nat) : (j.onFlush n f).surface x = j.surface x := rfl
@[simp] theorem dropFlush_surface (n : Nat) (x : Nat) : (j.dropFlush n).surface x = j.surface x := rfl
@[simp] theorem send_surface (m : BusMsg) (x : Nat) : (j.send m).surface x = j.surface x := rfl

end

section
variable (j : Jukebox)

/-- The records of the surfaces after a change of one. -/
theorem onSurface_surface (n x : Nat) (f : SurfaceRec → SurfaceRec) :
    (j.onSurface n f).surface x = if x = n ∧ n < 192 then f (j.surface n) else j.surface x := by
  simp only [Jukebox.onSurface, Jukebox.surface, List.getD_eq_getElem?_getD, Vector.getElem?_toList,
    Vector.getElem?_setIfInBounds]
  by_cases h : n = x
  · subst h; by_cases hn : n < 192 <;> simp [hn]
  · have h' : ¬ x = n := fun e => h e.symm
    simp [h, h']

/-- The records of the platters after a change of one. -/
theorem onPlatter_platter (n x : Nat) (f : Platter → Platter) :
    (j.onPlatter n f).platter x = if x = n ∧ n < 96 then f (j.platter n) else j.platter x := by
  simp only [Jukebox.onPlatter, Jukebox.platter, List.getD_eq_getElem?_getD, Vector.getElem?_toList,
    Vector.getElem?_setIfInBounds]
  by_cases h : n = x
  · subst h; by_cases hn : n < 96 <;> simp [hn]
  · have h' : ¬ x = n := fun e => h e.symm
    simp [h, h']

/-- A platter the jukebox does not have reads as an empty record. -/
theorem platter_far (p : Nat) (h : 96 ≤ p) : j.platter p = Platter.cold := by
  simp [Jukebox.platter, List.getD_eq_getElem?_getD, h]

/-- A surface the jukebox does not have reads as an UNKNOWN one. -/
theorem surface_far (n : Nat) (h : 192 ≤ n) : j.surface n = SurfaceRec.cold := by
  simp [Jukebox.surface, List.getD_eq_getElem?_getD, h]

/-- What holds of the first `m` numbers and of those from `m` on holds of every number: for the 96 platters and the 192
surfaces. -/
theorem near_and_far {m : Nat} {P : Nat → Prop} (near : ∀ n : Fin m, P n.val) (far : ∀ n, m ≤ n → P n) (n : Nat) : P n :=
  if h : n < m then near ⟨n, h⟩ else far n (by omega)

end

section
variable (s : State)

@[simp] theorem onJb_powered (f : Env → Jukebox → Jukebox) : (s.onJb f).powered = s.powered := rfl
@[simp] theorem onJb_now (f : Env → Jukebox → Jukebox) : (s.onJb f).now = s.now := rfl
@[simp] theorem onJb_batteryLow (f : Env → Jukebox → Jukebox) : (s.onJb f).batteryLow = s.batteryLow := rfl
@[simp] theorem onJb_map (f : Env → Jukebox → Jukebox) : (s.onJb f).map = s.map := rfl
@[simp] theorem onJb_settings (f : Env → Jukebox → Jukebox) : (s.onJb f).settings = s.settings := rfl
@[simp] theorem onJb_control (f : Env → Jukebox → Jukebox) : (s.onJb f).control = s.control := rfl
@[simp] theorem onJb_fee (f : Env → Jukebox → Jukebox) : (s.onJb f).fee = s.fee := rfl
@[simp] theorem onJb_pending (f : Env → Jukebox → Jukebox) : (s.onJb f).pending = s.pending := rfl
@[simp] theorem onJb_jb (f : Env → Jukebox → Jukebox) : (s.onJb f).jb = f s.env s.jb := rfl

end

end Sys2Proof.Machine
end

