-- ==== Sys2Proof/Laws/Quiet.lean ====
section
/-! SUPPORT. What the decisions of the arbiter and of the exchange order queue never change: a push, a pull, a sweep and
the start of an order leave the surface records, the platter table, the retain cache, the staged data, the fixed part of
every request and the lasting part of every drive as they were. -/

namespace Sys2Proof.Machine

/-- The part of a drive record that no decision of the arbiter changes. -/
def Drive.lasting (x : Drive) :
    Option Nat × Nat × Option DriveReason × Bool × Option EjectOutcome × Bool × Bool × Option Nat :=
  (x.platter, x.lastUse, x.reason, x.ejecting, x.lastEject, x.ejected, x.clearing, x.reported)

/-- The part of the picker record that no decision of the arbiter changes. -/
def Picker.lasting (p : Picker) :
    Option Nat × DoorPhase × Option Halt × Option PickerReason × Option InvTask × Bool × Option Nat × List Nat :=
  (p.gripped, p.door, p.halt, p.reason, p.inventory, p.recovering, p.settleEnd, p.slotTaken)

/-- A gather line with its state left out. -/
def GatherLine.staged (l : GatherLine) : GatherLine := { l with state := .filling }

/-- The part of a request that is fixed at its acceptance (R23). -/
def Request.core (q : Request) :
    (Fin 7 × Fin 8 × Kind × Nat × Nat × Level) × Nat × Nat × BitVec 8 × Option Nat × Nat × List Block :=
  ((q.initiator, q.tag, q.kind, q.window, q.feeClass, q.level), q.start, q.length, q.generation, q.deadline,
    q.accepted, q.data)

/-- `k` differs from `j` only as decisions of the arbiter can make it differ. -/
structure Quiet (j k : Jukebox) : Prop where
  surfaces : k.surfaces = j.surfaces
  platters : k.platters = j.platters
  retain : k.retain = j.retain
  lines : k.lines.map GatherLine.staged = j.lines.map GatherLine.staged
  cores : k.table.map Request.core = j.table.map Request.core
  picker : k.picker.lasting = j.picker.lasting
  drives : ∀ d, (k.drive d).lasting = (j.drive d).lasting

theorem Quiet.refl (j : Jukebox) : Quiet j j := ⟨rfl, rfl, rfl, rfl, rfl, rfl, fun _ => rfl⟩

theorem Quiet.trans {a b c : Jukebox} (h : Quiet a b) (k : Quiet b c) : Quiet a c :=
  ⟨k.surfaces.trans h.surfaces, k.platters.trans h.platters, k.retain.trans h.retain, k.lines.trans h.lines,
    k.cores.trans h.cores, k.picker.trans h.picker, fun d => (k.drives d).trans (h.drives d)⟩

section updates
variable {a j : Jukebox}

theorem Quiet.onDrive {d : Fin 4} {f : Drive → Drive} (h : Quiet a j)
    (hf : (f (j.drive d)).lasting = (j.drive d).lasting) : Quiet a (j.onDrive d f) :=
  h.trans ⟨rfl, rfl, rfl, rfl, rfl, rfl, fun x => by
    rw [onDrive_drive]; split
    · next e => subst e; exact hf
    · rfl⟩

theorem Quiet.onPicker {f : Picker → Picker} (h : Quiet a j) (hf : (f j.picker).lasting = j.picker.lasting) :
    Quiet a (j.onPicker f) := h.trans ⟨rfl, rfl, rfl, rfl, rfl, hf, fun _ => rfl⟩

theorem Quiet.setOrders {o : List Order} (h : Quiet a j) : Quiet a { j with orders := o } :=
  h.trans ⟨rfl, rfl, rfl, rfl, rfl, rfl, fun _ => rfl⟩

theorem Quiet.setFlushes {o : List Flush} (h : Quiet a j) : Quiet a { j with flushes := o } :=
  h.trans ⟨rfl, rfl, rfl, rfl, rfl, rfl, fun _ => rfl⟩

theorem Quiet.setTier {o : Tier} (h : Quiet a j) : Quiet a { j with lastTier := o } :=
  h.trans ⟨rfl, rfl, rfl, rfl, rfl, rfl, fun _ => rfl⟩

theorem Quiet.onOrder {d : Fin 4} {f : Order → Order} (h : Quiet a j) : Quiet a (j.onOrder d f) := h.setOrders

theorem Quiet.onFlush {n : Nat} {f : Flush → Flush} (h : Quiet a j) : Quiet a (j.onFlush n f) := h.setFlushes

theorem Quiet.dropFlush {n : Nat} (h : Quiet a j) : Quiet a (j.dropFlush n) := h.setFlushes

theorem Quiet.send {m : BusMsg} (h : Quiet a j) : Quiet a (j.send m) :=
  h.trans ⟨rfl, rfl, rfl, rfl, rfl, rfl, fun _ => rfl⟩

theorem Quiet.onRequest {i : Fin 7} {t : Fin 8} {f : Request → Request} (h : Quiet a j)
    (hf : ∀ q, (f q).core = q.core) : Quiet a (j.onRequest i t f) :=
  h.trans ⟨rfl, rfl, rfl, rfl, by
    simp only [Jukebox.onRequest, List.map_map]
    refine List.map_congr_left fun q _ => ?_
    simp only [Function.comp]; split
    · exact hf q
    · rfl, rfl, fun _ => rfl⟩

theorem Quiet.onSegment {r : SegRef} {f : Segment → Segment} (h : Quiet a j) : Quiet a (j.onSegment r f) :=
  h.onRequest fun _ => rfl

theorem Quiet.onLine {n k : Nat} {f : GatherLine → GatherLine} (h : Quiet a j)
    (hf : ∀ l, (f l).staged = l.staged) : Quiet a (j.onLine n k f) :=
  h.trans ⟨rfl, rfl, rfl, by
    simp only [Jukebox.onLine, List.map_map]
    refine List.map_congr_left fun q _ => ?_
    simp only [Function.comp]; split
    · exact hf q
    · rfl, rfl, rfl, fun _ => rfl⟩

end updates

/-! ## Orders -/

section orders
variable {a j : Jukebox} {e : Env} {d : Fin 4}

theorem beginUnload_quiet (h : Quiet a j) : Quiet a (beginUnload e d j) := h.onDrive (by split <;> rfl)

theorem freshLimit_quiet (h : Quiet a j) : Quiet a (freshLimit e j) := h.onPicker rfl

theorem checkStep1_quiet (h : Quiet a j) : Quiet a (checkStep1 e j) := by
  unfold checkStep1
  repeat' split
  · exact freshLimit_quiet h.onOrder
  · exact h.onPicker rfl
  · exact h
  · exact h

theorem toStep_quiet {n : Nat} (h : Quiet a j) : Quiet a (toStep e d n j) := freshLimit_quiet h.onOrder

theorem startNext_quiet (h : Quiet a j) : Quiet a (startNext e j) := by
  unfold startNext
  split
  · split
    · exact h
    · dsimp only
      split
      · exact checkStep1_quiet (beginUnload_quiet (freshLimit_quiet (h.setOrders.onPicker rfl)))
      · exact freshLimit_quiet (h.setOrders.onPicker rfl)
  · exact h

theorem joinOrders_quiet {o : Order} (h : Quiet a j) : Quiet a (joinOrders e o j) := startNext_quiet h.setOrders

theorem placeOrder_quiet {n : Nat} {x : Bool} (h : Quiet a j) : Quiet a (placeOrder e d n x j) := by
  unfold placeOrder
  dsimp only
  split
  · exact h.onOrder
  · exact joinOrders_quiet h

theorem placeReturnHome_quiet {x : Bool} (h : Quiet a j) : Quiet a (placeReturnHome e d x j) := joinOrders_quiet h

theorem pickerDone_quiet (h : Quiet a j) : Quiet a (pickerDone e j) := by
  unfold pickerDone
  split
  · exact startNext_quiet (h.onPicker rfl)
  · exact h

theorem dropOrder_quiet (h : Quiet a j) : Quiet a (dropOrder d j) := h.setOrders

theorem removeOrder_quiet (h : Quiet a j) : Quiet a (removeOrder e d j) := by
  unfold removeOrder
  split
  · exact h
  · split
    · exact dropOrder_quiet h
    · exact pickerDone_quiet (dropOrder_quiet h)

theorem breakMove_quiet (h : Quiet a j) : Quiet a (breakMove j) := h.onPicker rfl

theorem becomeReturnHome_quiet (h : Quiet a j) : Quiet a (becomeReturnHome d j) := h.onOrder

end orders

/-! ## The arbiter -/

section arbiter
variable {a j : Jukebox} {e : Env} {d : Fin 4}

theorem withdrawNaming_quiet {r : SegRef} (h : Quiet a j) : Quiet a (withdrawNaming r j) :=
  h.trans ⟨rfl, rfl, rfl, rfl, rfl, rfl, fun x => by
    simp only [withdrawNaming, Jukebox.drive, Fin.getElem_fin, Vector.getElem_map]
    split <;> rfl⟩

theorem beginBurst_quiet (h : Quiet a j) : Quiet a (beginBurst d j) := by
  unfold beginBurst
  dsimp only
  repeat' split
  all_goals first | exact h | exact h.send | exact h.onDrive rfl

theorem enterTransfer_quiet (h : Quiet a j) : Quiet a (enterTransfer d j) := beginBurst_quiet (h.onDrive rfl)

theorem seek_quiet {n : Nat} {x : Bool} (h : Quiet a j) : Quiet a (seek e d n x j) := by
  unfold seek
  split
  · exact enterTransfer_quiet h
  · exact placeOrder_quiet h

theorem takeFromList_quiet {w : WorkRef} (h : Quiet a j) : Quiet a (takeFromList w j) := by
  unfold takeFromList
  split
  · exact withdrawNaming_quiet h.onSegment
  · exact h.onFlush.onLine fun _ => rfl

theorem dispatch_quiet {it : Item} (h : Quiet a j) : Quiet a (dispatch e d it j) :=
  seek_quiet ((takeFromList_quiet h.setTier).onDrive rfl)

theorem considerPreempt_quiet {r : SegRef} (h : Quiet a j) : Quiet a (considerPreempt e r j) := by
  unfold considerPreempt
  repeat' split
  all_goals first | exact h | exact h.onDrive rfl

theorem push_quiet {w : WorkRef} (h : Quiet a j) : Quiet a (push e w j) := by
  unfold push
  repeat' split
  all_goals first | exact h | exact dispatch_quiet h | exact considerPreempt_quiet h

theorem pull_quiet (h : Quiet a j) : Quiet a (pull e d j) := by
  unfold pull
  repeat' split
  all_goals first | exact h | exact dispatch_quiet h

theorem sweepN_quiet {n : Nat} (h : Quiet a j) : Quiet a (sweepN e n j) := by
  induction n generalizing j with
  | zero => exact h
  | succ n ih =>
    unfold sweepN
    split
    · exact ih (dispatch_quiet h)
    · exact h

theorem sweep_quiet (h : Quiet a j) : Quiet a (sweep e j) := sweepN_quiet h

theorem sweepIfInSlot_quiet {p : Option Nat} (h : Quiet a j) : Quiet a (sweepIfInSlot e p j) := by
  unfold sweepIfInSlot
  repeat' split
  all_goals first | exact h | exact sweep_quiet h

theorem resume_quiet {c : Parked} (h : Quiet a j) : Quiet a (resume e d c j) := by
  unfold resume
  refine seek_quiet ?_
  split
  · exact h.onSegment.onDrive rfl
  · exact h.onFlush.onDrive rfl

theorem goOffline_quiet (h : Quiet a j) : Quiet a (goOffline d j) := h.onDrive rfl

theorem leaveService_quiet (h : Quiet a j) : Quiet a (leaveService e d j) := by
  unfold leaveService
  repeat' split
  all_goals first | exact h | exact goOffline_quiet h | exact placeReturnHome_quiet h

theorem endOfSegment_quiet (h : Quiet a j) : Quiet a (endOfSegment e d j) := by
  unfold endOfSegment
  repeat' split
  all_goals first | exact h | exact h.onDrive rfl | exact dispatch_quiet h | exact pull_quiet h

theorem driveFree_quiet {x : Bool} (h : Quiet a j) : Quiet a (driveFree e d x j) := by
  unfold driveFree
  dsimp only
  repeat' split
  all_goals first
    | exact h | exact dispatch_quiet h | exact resume_quiet h | exact leaveService_quiet h
    | exact endOfSegment_quiet h | exact pull_quiet h

theorem release_quiet (h : Quiet a j) : Quiet a (release d j) := h.onDrive rfl

theorem afterSegment_quiet (h : Quiet a j) : Quiet a (afterSegment e d j) := by
  unfold afterSegment
  split
  · exact dispatch_quiet h
  · exact driveFree_quiet (h.onDrive rfl)

theorem park_quiet (h : Quiet a j) : Quiet a (park d j) := by
  unfold park
  dsimp only
  split
  · refine Quiet.onDrive ?_ rfl
    split
    · exact h.onSegment
    · exact h.onFlush
  · exact h

theorem Request.rolled_core (q : Request) : q.rolled.core = q.core := by
  unfold Request.rolled; split <;> rfl

theorem finishSegment_quiet {r : SegRef} {st : Status} (h : Quiet a j) : Quiet a (finishSegment r st j) := by
  unfold finishSegment
  split
  · exact h
  · dsimp only
    split
    · refine h.onRequest ?_
      exact fun q => (Request.rolled_core _).trans rfl
    · refine (h.onRequest ?_).send
      exact fun q => (Request.rolled_core _).trans rfl

theorem testReach_quiet {r : SegRef} (h : Quiet a j) : Quiet a (testReach r j) := by
  unfold testReach
  repeat' split
  all_goals first | exact h | exact h.onSegment | exact withdrawNaming_quiet (finishSegment_quiet h)

theorem joinList_quiet {r : SegRef} (h : Quiet a j) : Quiet a (joinList e r j) := push_quiet (testReach_quiet h)

theorem retest_quiet {r : SegRef} (h : Quiet a j) : Quiet a (retest e j r) := by
  unfold retest
  repeat' split
  all_goals first | exact h | exact joinList_quiet h

/-- A fold of quiet operations is quiet. -/
theorem foldl_quiet {α : Type} {f : Jukebox → α → Jukebox} (hf : ∀ j x, Quiet a j → Quiet a (f j x)) (l : List α)
    (h : Quiet a j) : Quiet a (l.foldl f j) := by
  induction l generalizing j with
  | nil => exact h
  | cons x l ih => exact ih (hf _ _ h)

theorem retestAll_quiet (h : Quiet a j) : Quiet a (retestAll e j) := foldl_quiet (fun _ _ h => retest_quiet h) _ h

theorem testFlush_quiet {n : Nat} (h : Quiet a j) : Quiet a (testFlush e n j) := by
  unfold testFlush
  split
  · exact push_quiet h.setFlushes
  · exact h

theorem testAllFlushes_quiet (h : Quiet a j) : Quiet a (testAllFlushes e j) :=
  foldl_quiet (fun _ _ h => testFlush_quiet h) _ h

end arbiter

end Sys2Proof.Machine
end

