-- ==== Sys2Proof/Laws/Buffer.lean ====
section
/-! SUPPORT. Every operation on buffer memory keeps its one form (R95, R107): the gather lines in order, at most 32, the
retain lines distinct, at most 96. -/

namespace Sys2Proof.Machine

/-! ## Gather lines -/

/-- The gather lines of `l` stand in order and are at most 32. -/
def LinesWf (l : List GatherLine) : Prop :=
  (l.map GatherLine.place).Pairwise before ∧ l.length ≤ Config.gatherLines

/-- The retain lines of `l` are distinct and at most 96. -/
def RetainWf (l : List RetainLine) : Prop :=
  (l.map RetainLine.place).Nodup ∧ l.length ≤ Config.retainLines

theorem Jukebox.bufferWf_iff (j : Jukebox) : j.BufferWf ↔ LinesWf j.lines ∧ RetainWf j.retain :=
  ⟨fun h => ⟨⟨h.ordered, h.lines⟩, h.distinct, h.retained⟩, fun h => ⟨h.1.1, h.1.2, h.2.1, h.2.2⟩⟩

theorem before_trans {a b c : Nat × Nat} (h : before a b) (k : before b c) : before a c := by
  unfold before at *; omega

theorem LinesWf.ofPlaces {l m : List GatherLine} (h : LinesWf l) (e : m.map GatherLine.place = l.map GatherLine.place) :
    LinesWf m :=
  ⟨e ▸ h.1, by have := congrArg List.length e; simp only [List.length_map] at this; rw [this]; exact h.2⟩

theorem LinesWf.map {l : List GatherLine} (h : LinesWf l) {f : GatherLine → GatherLine} (hf : ∀ x, (f x).place = x.place) :
    LinesWf (l.map f) :=
  h.ofPlaces (by rw [List.map_map]; exact List.map_congr_left fun x _ => hf x)

theorem LinesWf.filter {l : List GatherLine} (h : LinesWf l) (p : GatherLine → Bool) : LinesWf (l.filter p) :=
  ⟨h.1.sublist (List.filter_sublist.map _), (List.length_filter_le _ _).trans h.2⟩

theorem place_staged (l : GatherLine) : l.staged.place = l.place := rfl

theorem LinesWf.staged {l m : List GatherLine} (h : LinesWf l) (e : m.map GatherLine.staged = l.map GatherLine.staged) :
    LinesWf m := by
  refine h.ofPlaces ?_
  have := congrArg (List.map GatherLine.place) e
  simpa [List.map_map, Function.comp_def, place_staged] using this

/-- The places of a list of lines hold a place. -/
def holds (l : List GatherLine) (s n : Nat) : Bool := (l.find? fun x => x.surface = s && x.index = n).isSome

theorem line_isSome (j : Jukebox) (s n : Nat) : (j.line s n).isSome = holds j.lines s n := rfl

theorem holds_iff {l : List GatherLine} {s n : Nat} : holds l s n = true ↔ (s, n) ∈ l.map GatherLine.place := by
  simp [holds, GatherLine.place, and_comm]

theorem mem_insertLine {x y : GatherLine} {l : List GatherLine} : y ∈ insertLine x l ↔ y = x ∨ y ∈ l := by
  induction l with
  | nil => simp [insertLine]
  | cons z l ih =>
    simp only [insertLine]; split
    · simp
    · simp only [List.mem_cons, ih]; tauto

theorem length_insertLine {x : GatherLine} {l : List GatherLine} : (insertLine x l).length = l.length + 1 := by
  induction l with
  | nil => rfl
  | cons z l ih => simp only [insertLine]; split <;> simp [ih]

theorem insertLine_ordered {x : GatherLine} {l : List GatherLine} (h : (l.map GatherLine.place).Pairwise before)
    (hx : x.place ∉ l.map GatherLine.place) : ((insertLine x l).map GatherLine.place).Pairwise before := by
  induction l with
  | nil => simp [insertLine]
  | cons z l ih =>
    rw [List.map_cons, List.pairwise_cons] at h
    rw [List.map_cons, List.mem_cons, not_or] at hx
    simp only [insertLine]
    split
    · next hb =>
      have hxz : before x.place z.place := by
        simpa [before, GatherLine.place, and_comm] using hb
      simp only [List.map_cons, List.pairwise_cons, List.mem_cons]
      refine ⟨?_, h⟩
      rintro a (rfl | ha)
      · exact hxz
      · exact before_trans hxz (h.1 a ha)
    · next hb =>
      rw [List.map_cons, List.pairwise_cons]
      refine ⟨?_, ih h.2 hx.2⟩
      intro a ha
      rw [List.mem_map] at ha
      obtain ⟨y, hy, rfl⟩ := ha
      rcases mem_insertLine.1 hy with rfl | hy
      · have h1 := hx.1
        simp only [GatherLine.place, Prod.mk.injEq, not_and] at h1
        simp only [Bool.or_eq_true, Bool.and_eq_true, decide_eq_true_eq, not_or, not_and] at hb
        simp only [before, GatherLine.place]; omega
      · exact h.1 _ (List.mem_map_of_mem hy)

/-! ## Staging (R113) -/

section staging
variable {e : Env} {q : Request} {g : Segment} {j : Jukebox} {n : Nat}

theorem stagedLine_place (o : Option GatherLine) (h : ∀ l, o = some l → l.place = (g.surface, n)) :
    (stagedLine e q g n o).place = (g.surface, n) := by
  cases o with
  | none => rfl
  | some l => exact h l rfl

theorem line_place {s : Nat} {l : GatherLine} (h : j.line s n = some l) : l.place = (s, n) := by
  have := List.find?_some h
  simp only [Bool.and_eq_true, decide_eq_true_eq] at this
  simp [GatherLine.place, this]

/-- What staging one line does to the places in use: nothing, or one more (R113 steps 1 and 2). -/
theorem stageIn_lines :
    ((j.line g.surface n).isSome = true ∧ (stageIn e q g j n).lines.map GatherLine.place = j.lines.map GatherLine.place) ∨
    ((j.line g.surface n).isSome = false ∧
      ∃ l, l.place = (g.surface, n) ∧ (stageIn e q g j n).lines = insertLine l j.lines) := by
  unfold stageIn
  cases h : j.line g.surface n with
  | some l =>
    refine .inl ⟨rfl, ?_⟩
    simp only [Jukebox.onLine, List.map_map]
    refine List.map_congr_left fun x _ => ?_
    simp only [Function.comp]; split
    · next hx =>
      simp only [Bool.and_eq_true, decide_eq_true_eq] at hx
      rw [stagedLine_place _ fun m hm => by cases hm; exact line_place h]
      simp [GatherLine.place, hx]
    · rfl
  | none => exact .inr ⟨rfl, _, stagedLine_place _ (by simp), rfl⟩

theorem stageIn_ordered (h : (j.lines.map GatherLine.place).Pairwise before) :
    ((stageIn e q g j n).lines.map GatherLine.place).Pairwise before := by
  rcases stageIn_lines (e := e) (q := q) (g := g) (j := j) (n := n) with ⟨_, h2⟩ | ⟨h1, l, h2, h3⟩
  · rw [h2]; exact h
  · rw [h3]
    refine insertLine_ordered h ?_
    rw [h2, ← holds_iff, ← line_isSome, h1]; simp

theorem stageIn_holds {s m : Nat} (h : holds j.lines s m = true) : holds (stageIn e q g j n).lines s m = true := by
  rw [holds_iff] at h ⊢
  rcases stageIn_lines (e := e) (q := q) (g := g) (j := j) (n := n) with ⟨_, h2⟩ | ⟨_, l, _, h3⟩
  · rw [h2]; exact h
  · rw [h3]; rw [List.mem_map] at h ⊢
    obtain ⟨x, hx, hp⟩ := h
    exact ⟨x, mem_insertLine.2 (.inr hx), hp⟩

theorem stageIn_length : (stageIn e q g j n).lines.length ≤
    j.lines.length + if (j.line g.surface n).isNone then 1 else 0 := by
  rcases stageIn_lines (e := e) (q := q) (g := g) (j := j) (n := n) with ⟨h1, h2⟩ | ⟨h1, l, _, h3⟩
  · have := congrArg List.length h2
    simp only [List.length_map] at this
    omega
  · rw [h3, length_insertLine]
    have : (j.line g.surface n).isNone = true := by simpa using h1
    simp [this]

/-- The new lines a list of line indices of a surface needs. -/
def missing (l : List GatherLine) (s : Nat) (ns : List Nat) : Nat := (ns.filter fun n => !holds l s n).length

theorem missing_mono {l m : List GatherLine} {s : Nat} {ns : List Nat}
    (h : ∀ n, holds l s n = true → holds m s n = true) : missing m s ns ≤ missing l s ns := by
  unfold missing
  rw [← List.countP_eq_length_filter, ← List.countP_eq_length_filter]
  refine List.countP_mono_left fun n _ hn => ?_
  by_contra hc
  simp only [Bool.not_eq_true', Bool.not_eq_false] at hn hc
  rw [h n (by simpa using hc)] at hn; cases hn

theorem foldl_stageIn {ns : List Nat} (h : (j.lines.map GatherLine.place).Pairwise before) :
    ((ns.foldl (stageIn e q g) j).lines.map GatherLine.place).Pairwise before ∧
    (ns.foldl (stageIn e q g) j).lines.length ≤ j.lines.length + missing j.lines g.surface ns ∧
    ∀ s m, holds j.lines s m = true → holds (ns.foldl (stageIn e q g) j).lines s m = true := by
  induction ns generalizing j with
  | nil => exact ⟨h, by simp [missing], fun _ _ h => h⟩
  | cons n ns ih =>
    obtain ⟨h1, h2, h3⟩ := ih (stageIn_ordered (n := n) h)
    refine ⟨h1, ?_, fun s m hm => h3 s m (stageIn_holds hm)⟩
    have hl := stageIn_length (e := e) (q := q) (g := g) (j := j) (n := n)
    have hm := missing_mono (s := g.surface) (ns := ns) fun m hm =>
      stageIn_holds (e := e) (q := q) (g := g) (j := j) (n := n) (s := g.surface) (m := m) hm
    rw [List.foldl_cons]
    refine h2.trans ?_
    have hc : missing j.lines g.surface (n :: ns) =
        (if (j.line g.surface n).isNone then 1 else 0) + missing j.lines g.surface ns := by
      have : (j.line g.surface n).isNone = !holds j.lines g.surface n := by
        rw [← line_isSome]; cases j.line g.surface n <;> rfl
      simp only [missing, List.filter_cons, this]
      split <;> simp [Nat.add_comm]
    omega

theorem markDue_places {p : GatherLine → Bool} :
    (markDue e p j).lines.map GatherLine.place = j.lines.map GatherLine.place := by
  simp only [markDue, List.map_map]
  refine List.map_congr_left fun x _ => ?_
  simp only [Function.comp]; split
  · unfold GatherLine.makeDue; split <;> rfl
  · rfl

theorem holds_congr {l m : List GatherLine} (h : m.map GatherLine.place = l.map GatherLine.place) (s n : Nat) :
    holds m s n = holds l s n := by
  rw [Bool.eq_iff_iff, holds_iff, holds_iff, h]

/-- What a reservation for one segment does to the places in use (R113). -/
theorem stageSegment_lines (h : (j.lines.map GatherLine.place).Pairwise before) :
    ((stageSegment e q j g).lines.map GatherLine.place).Pairwise before ∧
    (stageSegment e q j g).lines.length ≤ j.lines.length + missing j.lines g.surface g.indices ∧
    ∀ s m, holds j.lines s m = true → holds (stageSegment e q j g).lines s m = true := by
  unfold stageSegment
  dsimp only
  have hk := foldl_stageIn (e := e) (q := q) (g := g)
    (j := j.send (.fetch q.initiator q.tag (q.address g g.first) g.count)) (ns := g.indices) h
  obtain ⟨h1, h2, h3⟩ := hk
  refine ⟨?_, ?_, fun s m hm => ?_⟩
  · rw [markDue_places]; exact h1
  · rw [← List.length_map (f := GatherLine.place), markDue_places, List.length_map]; exact h2
  · rw [holds_congr markDue_places]; exact h3 s m hm

theorem linesNeeded_eq : j.linesNeeded q =
    (q.gatherSegments.map fun g => missing j.lines g.surface g.indices).sum := by
  unfold Jukebox.linesNeeded missing
  congr 1
  refine List.map_congr_left fun g _ => ?_
  congr 1
  refine List.filter_congr fun n _ => ?_
  rw [← line_isSome]; cases j.line g.surface n <;> rfl

theorem foldl_stageSegment {gs : List Segment} (h : (j.lines.map GatherLine.place).Pairwise before) :
    ((gs.foldl (stageSegment e q) j).lines.map GatherLine.place).Pairwise before ∧
    (gs.foldl (stageSegment e q) j).lines.length ≤
      j.lines.length + (gs.map fun g => missing j.lines g.surface g.indices).sum := by
  induction gs generalizing j with
  | nil => exact ⟨h, by simp⟩
  | cons g gs ih =>
    obtain ⟨h1, h2, h3⟩ := stageSegment_lines (e := e) (q := q) (g := g) h
    obtain ⟨h4, h5⟩ := ih h1
    refine ⟨h4, ?_⟩
    have hm : (gs.map fun x => missing (stageSegment e q j g).lines x.surface x.indices).sum ≤
        (gs.map fun x => missing j.lines x.surface x.indices).sum :=
      List.sum_le_sum fun x _ => missing_mono fun n hn => h3 _ n hn
    rw [List.foldl_cons, List.map_cons, List.sum_cons]
    omega

theorem LinesWf.quiet {k : Jukebox} (h : LinesWf j.lines) (m : Quiet j k) : LinesWf k.lines := h.staged m.lines

/-- A reservation for a head that does not wait keeps the gather lines in order and within 32 (R113, R111 check 7). -/
theorem reserve_linesWf (h : LinesWf j.lines) (hw : j.headWaits q = false) : LinesWf (reserve e q j).lines := by
  unfold reserve
  dsimp only
  have hq : LinesWf (q.gatherSegments.foldl (stageSegment e q) j).lines := by
    obtain ⟨h1, h2⟩ := foldl_stageSegment (e := e) (q := q) (gs := q.gatherSegments) h.1
    refine ⟨h1, h2.trans ?_⟩
    rw [← linesNeeded_eq]
    have : ¬ j.freeLines < j.linesNeeded q := by
      intro hc; simp [Jukebox.headWaits, hc] at hw
    have hl := h.2
    unfold Jukebox.freeLines at this; omega
  refine LinesWf.quiet (j := q.gatherSegments.foldl (stageSegment e q) j) hq ?_
  refine foldl_quiet (fun _ _ h => testFlush_quiet h) _ ?_
  refine foldl_quiet (fun _ x h => ?_) _ ?_
  · split
    · exact h
    · exact joinList_quiet h
  · exact Quiet.onRequest (.refl _) fun q => (Request.rolled_core _).trans rfl

/-- The examination of the head keeps the gather lines in order and within 32 (R110). -/
theorem examineHead_linesWf (h : LinesWf j.lines) : LinesWf (examineHead e j).lines := by
  unfold examineHead
  generalize j.table.length = n
  induction n generalizing j with
  | zero => exact h
  | succ n ih =>
    unfold examineN
    split
    · exact h
    · split
      · exact ih h
      · split
        · exact h
        · next hw => exact ih (reserve_linesWf h (by simpa using hw))

end staging

/-! ## Retain lines -/

section retain
variable {c : List RetainLine}

theorem RetainWf.filter (h : RetainWf c) (p : RetainLine → Bool) : RetainWf (c.filter p) :=
  ⟨h.1.sublist (List.filter_sublist.map _), (List.length_filter_le _ _).trans h.2⟩

theorem retainFind_some {s n : Nat} {l : RetainLine} (h : retainFind c s n = some l) : l ∈ c ∧ l.place = (s, n) := by
  have := List.find?_some h
  simp only [Bool.and_eq_true, decide_eq_true_eq] at this
  exact ⟨List.mem_of_find?_eq_some h, by simp [RetainLine.place, this]⟩

theorem retainFind_none {s n : Nat} (h : retainFind c s n = none) : (s, n) ∉ c.map RetainLine.place := by
  intro hm
  obtain ⟨l, hl, he⟩ := List.mem_map.1 hm
  have := List.find?_eq_none.1 h l hl
  simp only [RetainLine.place, Prod.mk.injEq] at he
  simp [he] at this

theorem RetainWf.touch (h : RetainWf c) (s n : Nat) : RetainWf (retainTouch c s n) := by
  unfold retainTouch
  split
  · next l hl =>
    obtain ⟨hm, hp⟩ := retainFind_some hl
    have hd : RetainWf (retainDrop c s n) := h.filter _
    have hn : l.place ∉ (retainDrop c s n).map RetainLine.place := by
      intro hc
      obtain ⟨x, hx, he⟩ := List.mem_map.1 hc
      rw [hp] at he
      simp only [RetainLine.place, Prod.mk.injEq] at he
      simp [retainDrop, he] at hx
    refine ⟨List.nodup_cons.2 ⟨hn, hd.1⟩, ?_⟩
    have hlt : (retainDrop c s n).length < c.length := by
      refine List.length_filter_lt_length_iff_exists.2 ⟨l, hm, ?_⟩
      simp only [RetainLine.place, Prod.mk.injEq] at hp
      simp [hp]
    have := h.2
    simp only [List.length_cons]; omega
  · exact h

theorem RetainWf.install (h : RetainWf c) (l : RetainLine) : RetainWf (retainInstall c l) := by
  unfold retainInstall
  split
  · exact h.touch _ _
  · next hn =>
    have hs : (c.take (Config.retainLines - 1)).Sublist c := List.take_sublist _ _
    refine ⟨List.nodup_cons.2 ⟨fun hc => retainFind_none hn ((hs.map _).subset hc), h.1.sublist (hs.map _)⟩, ?_⟩
    simp only [List.length_cons, List.length_take, Config.retainLines]; omega

theorem RetainWf.update (h : RetainWf c) (s lo hi : Nat) (data : List Block) : RetainWf (retainUpdate c s lo hi data) := by
  unfold retainUpdate
  refine ⟨?_, by simpa using h.2⟩
  rw [List.map_map]
  convert h.1 using 1
  refine List.map_congr_left fun l _ => ?_
  simp only [Function.comp]; split <;> rfl

theorem RetainWf.foldl {α : Type} {f : List RetainLine → α → List RetainLine} (h : RetainWf c)
    (hf : ∀ c x, RetainWf c → RetainWf (f c x)) (l : List α) : RetainWf (l.foldl f c) := by
  induction l generalizing c with
  | nil => exact h
  | cons x l ih => exact ih (hf _ _ h)

theorem RetainWf.installAll (h : RetainWf c) {e : Env} {j : Jukebox} {l : List RetainLine} :
    RetainWf (installAll e j l c) := by
  unfold Machine.installAll
  refine h.foldl (fun c x hc => ?_) _
  split
  · exact hc.install _
  · exact hc

/-- A block of a burst leaves the retain cache as it was, or makes one cached line the most recently used (R97). -/
theorem serveBlock_cache (n : Nat) (g : Segment) (m : List (Nat × MediaRead)) (a : Burst) (x : Source × Nat) :
    (serveBlock n g m a x).cache = a.cache ∨
      (serveBlock n g m a x).cache = retainTouch a.cache g.surface (x.2 / Config.lineBlocks) := by
  have hg : ∀ (b : Nat) (x : Block) (a : Burst), (growFill m g b x a).cache = a.cache := by
    intro b x a; unfold growFill; dsimp only; repeat' split
    all_goals rfl
  have hp : ∀ (u v : Bool) (b : Nat) (a : Burst), (platterBlock m g u v b a).cache = a.cache := by
    intro u v b a; unfold platterBlock; dsimp only; repeat' split
    all_goals first | rfl | exact hg _ _ _
  unfold serveBlock
  repeat' split
  all_goals first | exact .inl rfl | exact .inr rfl | exact .inl (hp _ _ _ _)

theorem readBurst_cache {c : List RetainLine} {n : Nat} {g : Segment} {f : Option Fill} {r : List (Nat × MediaRead)}
    {l : List Source} (h : RetainWf c) : RetainWf (readBurst c n g f r l).cache := by
  unfold readBurst
  generalize l.zipIdx g.next = l
  suffices ∀ a : Burst, RetainWf a.cache → RetainWf (l.foldl (serveBlock n g r) a).cache from this _ h
  intro a ha
  induction l generalizing a with
  | nil => exact ha
  | cons b l ih =>
    refine ih _ ?_
    rcases serveBlock_cache n g r a b with hb | hb <;> rw [hb]
    · exact ha
    · exact ha.touch _ _

end retain

/-- Buffer memory at reset has its one form. -/
theorem reset_bufferWf : State.reset.jb.BufferWf := by
  exact ⟨List.Pairwise.nil, by decide, List.nodup_nil, by decide⟩

end Sys2Proof.Machine
end

