-- ==== Sys2Proof/Laws/Mild.lean ====
section
/-! SUPPORT. What the examination of the staging queue's head and the filing engine's tests never change: seal marks,
conditions, quarantine records, the platter table, the retain cache, the fixed part of every request, and the lasting part
of the drives and of the picker. -/

namespace Sys2Proof.Machine

/-- A surface record with its append point left out. -/
def SurfaceRec.sealed (r : SurfaceRec) : Nat × Condition × Option Quarantine := (r.sealMark, r.condition, r.quarantine)

/-- `k` differs from `j` only as an examination of the head or a flush test can make it differ. -/
structure Mild (j k : Jukebox) : Prop where
  seals : ∀ n, (k.surface n).sealed = (j.surface n).sealed
  platters : k.platters = j.platters
  retain : k.retain = j.retain
  cores : k.table.map Request.core = j.table.map Request.core
  picker : k.picker.lasting = j.picker.lasting
  drives : ∀ d, (k.drive d).lasting = (j.drive d).lasting

theorem Mild.refl (j : Jukebox) : Mild j j := ⟨fun _ => rfl, rfl, rfl, rfl, rfl, fun _ => rfl⟩

theorem Mild.trans {a b c : Jukebox} (h : Mild a b) (k : Mild b c) : Mild a c :=
  ⟨fun n => (k.seals n).trans (h.seals n), k.platters.trans h.platters, k.retain.trans h.retain,
    k.cores.trans h.cores, k.picker.trans h.picker, fun d => (k.drives d).trans (h.drives d)⟩

theorem Quiet.mild {j k : Jukebox} (h : Quiet j k) : Mild j k :=
  ⟨fun n => by simp only [Jukebox.surface, h.surfaces], h.platters, h.retain, h.cores, h.picker, h.drives⟩

section updates
variable {a j : Jukebox}

theorem Mild.quiet {k : Jukebox} (h : Mild a j) (q : Quiet j k) : Mild a k := h.trans q.mild

theorem Mild.setLines {l : List GatherLine} (h : Mild a j) : Mild a { j with lines := l } :=
  h.trans ⟨fun _ => rfl, rfl, rfl, rfl, rfl, fun _ => rfl⟩

theorem Mild.onSurface {n : Nat} {f : SurfaceRec → SurfaceRec} (h : Mild a j)
    (hf : ∀ r, (f r).sealed = r.sealed) : Mild a (j.onSurface n f) :=
  h.trans ⟨fun x => by
    rw [onSurface_surface]; split
    · next e => rw [e.1]; exact hf _
    · rfl, rfl, rfl, rfl, rfl, fun _ => rfl⟩

theorem Mild.setTable {l : List Request} (h : Mild a j) (hl : l.map Request.core = j.table.map Request.core) :
    Mild a { j with table := l } := h.trans ⟨fun _ => rfl, rfl, rfl, hl, rfl, fun _ => rfl⟩

theorem foldl_mild {α : Type} {f : Jukebox → α → Jukebox} (hf : ∀ j x, Mild a j → Mild a (f j x)) (l : List α)
    (h : Mild a j) : Mild a (l.foldl f j) := by
  induction l generalizing j with
  | nil => exact h
  | cons x l ih => exact ih (hf _ _ h)

end updates

section filing
variable {a j : Jukebox} {e : Env} {d : Fin 4}

theorem markDue_mild {p : GatherLine → Bool} (h : Mild a j) : Mild a (markDue e p j) := h.setLines

theorem testFlush_mild {n : Nat} (h : Mild a j) : Mild a (testFlush e n j) := h.quiet (testFlush_quiet (.refl _))

theorem testAllFlushes_mild (h : Mild a j) : Mild a (testAllFlushes e j) := h.quiet (testAllFlushes_quiet (.refl _))

theorem stageIn_mild {q : Request} {g : Segment} {n : Nat} (h : Mild a j) : Mild a (stageIn e q g j n) := by
  unfold stageIn
  split
  · exact h.setLines
  · exact h.setLines

theorem stageSegment_mild {q : Request} {g : Segment} (h : Mild a j) : Mild a (stageSegment e q j g) := by
  unfold stageSegment
  refine markDue_mild (Mild.onSurface ?_ fun _ => rfl)
  exact foldl_mild (fun _ _ h => stageIn_mild h) _ (h.quiet (Quiet.send (.refl _)))

theorem reserve_mild {q : Request} (h : Mild a j) : Mild a (reserve e q j) := by
  unfold reserve
  refine foldl_mild (fun _ _ h => testFlush_mild h) _ ?_
  refine foldl_mild (fun _ x h => ?_) _ ?_
  · split
    · exact h
    · exact h.quiet (joinList_quiet (.refl _))
  · refine (foldl_mild (fun _ _ h => stageSegment_mild h) _ h).quiet (Quiet.onRequest (.refl _) ?_)
    exact fun q => (Request.rolled_core _).trans rfl

theorem examineN_mild {n : Nat} (h : Mild a j) : Mild a (examineN e n j) := by
  induction n generalizing j with
  | zero => exact h
  | succ n ih =>
    unfold examineN
    repeat' split
    · exact h
    · exact ih (h.quiet (Quiet.onRequest (.refl _) fun _ => rfl))
    · exact h
    · exact ih (reserve_mild h)

/-- The examination of the head (R110). -/
theorem examineHead_mild (h : Mild a j) : Mild a (examineHead e j) := examineN_mild h

theorem endAwaiting_mild {st : Status} {p : Segment → Bool} (h : Mild a j) : Mild a (endAwaiting st p j) := by
  refine h.setTable ?_
  rw [List.map_map]
  exact List.map_congr_left fun q _ => (Request.rolled_core _).trans rfl

theorem takeBack_mild {n k : Nat} (h : Mild a j) : Mild a (takeBack e n k j) :=
  examineHead_mild (testFlush_mild (h.setLines.quiet (Quiet.dropFlush (.refl _))))

theorem flushAllLines_mild (h : Mild a j) : Mild a (flushAllLines e j) := testAllFlushes_mild (markDue_mild h)

theorem ageLimit_mild {n k : Nat} (h : Mild a j) : Mild a (ageLimit e n k j) := testFlush_mild (markDue_mild h)

theorem enterLow_mild (h : Mild a j) : Mild a (enterLow e j) := testAllFlushes_mild (markDue_mild h)

theorem leaveLow_mild (h : Mild a j) : Mild a (leaveLow j) := endAwaiting_mild h

end filing

end Sys2Proof.Machine
end

