-- ==== Sys2Proof/Laws/Kept.lean ====
section
/-! SUPPORT. What every event of the jukebox keeps: the fixed part of the requests in the table (R23) and the one form of
buffer memory (R95, R107).  No event but an acceptance, a send, a front bus reset and power changes which requests stand in
the table or the fields fixed at their acceptance. -/

namespace Sys2Proof.Machine

/-- The seal mark and the condition of a surface record. -/
def SurfaceRec.marked (r : SurfaceRec) : Nat × Condition := (r.sealMark, r.condition)

/-- `k` holds the requests of `a`, as far as acceptance fixed them, and buffer memory is in its one form if it was so in
`a`.  With `fixed` every seal mark and condition is as in `a`, too: only a verify end, RESTORE SEAL and power move them. -/
structure Kept (fixed : Bool) (a k : Jukebox) : Prop where
  cores : k.table.map Request.core = a.table.map Request.core
  lines : LinesWf a.lines → LinesWf k.lines
  retain : RetainWf a.retain → RetainWf k.retain
  seals : fixed = true → ∀ n, (k.surface n).marked = (a.surface n).marked

section basics
variable {b0 : Bool} {a j : Jukebox}

theorem Kept.refl (j : Jukebox) : Kept b0 j j := ⟨rfl, id, id, fun _ _ => rfl⟩

theorem Kept.quiet {k : Jukebox} (h : Kept b0 a j) (m : Quiet j k) : Kept b0 a k :=
  ⟨m.cores.trans h.cores, fun w => (h.lines w).quiet m, fun w => m.retain ▸ h.retain w,
    fun b n => (by simp only [Jukebox.surface, m.surfaces] : (k.surface n).marked = (j.surface n).marked).trans (h.seals b n)⟩

theorem Kept.same {k : Jukebox} (h : Kept b0 a j)
    (e : (k.table, k.lines, k.retain, k.surfaces) = (j.table, j.lines, j.retain, j.surfaces)) : Kept b0 a k := by
  simp only [Prod.mk.injEq] at e
  obtain ⟨h1, h2, h3, h4⟩ := e
  exact ⟨by rw [h1]; exact h.cores, by rw [h2]; exact h.lines, by rw [h3]; exact h.retain,
    fun b n => by unfold Jukebox.surface; rw [h4]; exact h.seals b n⟩

theorem Kept.setLines {l : List GatherLine} (h : Kept b0 a j) (hl : LinesWf j.lines → LinesWf l) :
    Kept b0 a { j with lines := l } := ⟨h.cores, fun w => hl (h.lines w), h.retain, h.seals⟩

theorem Kept.setRetain {l : List RetainLine} (h : Kept b0 a j) (hl : RetainWf j.retain → RetainWf l) :
    Kept b0 a { j with retain := l } := ⟨h.cores, h.lines, fun w => hl (h.retain w), h.seals⟩

theorem Kept.setTable {l : List Request} (h : Kept b0 a j) (hl : l.map Request.core = j.table.map Request.core) :
    Kept b0 a { j with table := l } := ⟨hl.trans h.cores, h.lines, h.retain, h.seals⟩

theorem Kept.onSurface {n : Nat} {f : SurfaceRec → SurfaceRec} (h : Kept b0 a j)
    (hf : b0 = true → ∀ r, (f r).marked = r.marked) : Kept b0 a (j.onSurface n f) :=
  ⟨h.cores, h.lines, h.retain, fun b x => by
    rw [onSurface_surface]; split
    · next e => rw [e.1]; exact (hf b _).trans (h.seals b n)
    · exact h.seals b x⟩

theorem Kept.onLine {s n : Nat} {f : GatherLine → GatherLine} (h : Kept b0 a j) (hf : ∀ l, (f l).place = l.place) :
    Kept b0 a (j.onLine s n f) := h.setLines fun w => w.map fun l => by split <;> first | exact hf l | rfl

theorem Kept.onRequest {i : Fin 7} {t : Fin 8} {f : Request → Request} (h : Kept b0 a j)
    (hf : ∀ q, (f q).core = q.core) : Kept b0 a (j.onRequest i t f) := h.quiet ((Quiet.refl _).onRequest hf)

theorem Kept.onSegment {r : SegRef} {f : Segment → Segment} (h : Kept b0 a j) : Kept b0 a (j.onSegment r f) :=
  h.quiet (Quiet.refl _).onSegment

theorem foldl_kept {α : Type} {f : Jukebox → α → Jukebox} (hf : ∀ j x, Kept b0 a j → Kept b0 a (f j x)) (l : List α)
    (h : Kept b0 a j) : Kept b0 a (l.foldl f j) := by
  induction l generalizing j with
  | nil => exact h
  | cons x l ih => exact ih (hf _ _ h)

end basics

section ops
variable {b0 : Bool} {a j : Jukebox} {e : Env} {d : Fin 4} {r : SegRef} {g : Segment}

/-! ## Retrieval and the ends of segments -/

theorem stopSegment_kept (h : Kept b0 a j) : Kept b0 a (stopSegment r j) := h.onSegment

theorem finishSegment_kept {st : Status} (h : Kept b0 a j) : Kept b0 a (finishSegment r st j) :=
  h.quiet (finishSegment_quiet (.refl _))

theorem serveRam_kept (h : Kept b0 a j) : Kept b0 a (serveRam r j) := by
  unfold serveRam
  split
  · exact h
  · refine finishSegment_kept (Kept.onSegment ?_)
    split
    · exact h
    · exact h.setRetain fun w => w.foldl (fun _ _ h => h.touch _ _) _

theorem discardWritten_kept {n : Nat} (h : Kept b0 a j) : Kept b0 a (discardWritten g n j) := by
  exact h.setRetain fun w => w.filter _

theorem discardSegment_kept (h : Kept b0 a j) : Kept b0 a (discardSegment g j) := by
  exact h.setRetain fun w => w.filter _

theorem discardPass_kept {p : Option Pass} {n : Nat} (h : Kept b0 a j) : Kept b0 a (discardPass g p n j) := by
  unfold discardPass; split
  · exact discardWritten_kept h
  · exact h

theorem discardStopped_kept {p : Option Pass} {n : Nat} (h : Kept b0 a j) : Kept b0 a (discardStopped g p n j) := by
  unfold discardStopped; split
  · exact discardPass_kept h
  · exact h

theorem endAwaiting_kept {st : Status} {p : Segment → Bool} (h : Kept b0 a j) : Kept b0 a (endAwaiting st p j) :=
  h.setTable (endAwaiting_mild (.refl _)).cores

theorem markDue_kept {p : GatherLine → Bool} (h : Kept b0 a j) : Kept b0 a (markDue e p j) :=
  h.setLines fun w => w.ofPlaces markDue_places

theorem sealBlocks_kept {f : Flush} (h : Kept false a j) : Kept false a (sealBlocks f j) := by
  unfold sealBlocks
  refine endAwaiting_kept ?_
  refine Kept.same (j := (j.onSurface f.surface fun r => { r with sealMark := (j.flushRange f).2 }).freeLine f.surface
    f.line) ?_ rfl
  exact Kept.setLines (Kept.onSurface h nofun) fun w => w.filter _

theorem pinLine_kept {f : Flush} {s : Side} (h : Kept b0 a j) : Kept b0 a (pinLine f s j) := by
  unfold pinLine
  refine endAwaiting_kept (Kept.same (Kept.onSurface (f := fun r => { r with quarantine := some ⟨f.line, s, 3⟩ })
    (n := f.surface) (h.onLine (s := f.surface) (n := f.line) (f := fun l => { l with state := .pinned, attempts := 3 })
      fun _ => rfl) fun _ _ => rfl) rfl)

theorem examineHead_kept (h : Kept b0 a j) : Kept b0 a (examineHead e j) :=
  ⟨(examineHead_mild (.refl _)).cores.trans h.cores, fun w => examineHead_linesWf (h.lines w),
    fun w => (examineHead_mild (e := e) (.refl j)).retain ▸ h.retain w,
    fun b n => by
      have := (examineHead_mild (e := e) (.refl j)).seals n
      simp only [SurfaceRec.sealed, Prod.mk.injEq] at this
      rw [← h.seals b n]; simp [SurfaceRec.marked, this]⟩

theorem testFlush_kept {n : Nat} (h : Kept b0 a j) : Kept b0 a (testFlush e n j) := h.quiet (testFlush_quiet (.refl _))

theorem takeBack_kept {n k : Nat} (h : Kept b0 a j) : Kept b0 a (takeBack e n k j) :=
  examineHead_kept (testFlush_kept (Kept.same (h.onLine (f := fun l => { l with state := .filling }) fun _ => rfl) rfl))

theorem joinList_kept (h : Kept b0 a j) : Kept b0 a (joinList e r j) := h.quiet (joinList_quiet (.refl _))

theorem push_kept {w : WorkRef} (h : Kept b0 a j) : Kept b0 a (push e w j) := h.quiet (push_quiet (.refl _))

theorem sweep_kept (h : Kept b0 a j) : Kept b0 a (sweep e j) := h.quiet (sweep_quiet (.refl _))

theorem sweepIfInSlot_kept {p : Option Nat} (h : Kept b0 a j) : Kept b0 a (sweepIfInSlot e p j) :=
  h.quiet (sweepIfInSlot_quiet (.refl _))

theorem driveFree_kept {b : Bool} (h : Kept b0 a j) : Kept b0 a (driveFree e d b j) :=
  h.quiet (driveFree_quiet (.refl _))

theorem removeOrder_kept (h : Kept b0 a j) : Kept b0 a (removeOrder e d j) := h.quiet (removeOrder_quiet (.refl _))

theorem retestAll_kept (h : Kept b0 a j) : Kept b0 a (retestAll e j) := h.quiet (retestAll_quiet (.refl _))

theorem considerPreempt_kept (h : Kept b0 a j) : Kept b0 a (considerPreempt e r j) :=
  h.quiet (considerPreempt_quiet (.refl _))

theorem placeReturnHome_kept {b : Bool} (h : Kept b0 a j) : Kept b0 a (placeReturnHome e d b j) :=
  h.quiet (placeReturnHome_quiet (.refl _))

theorem checkStep1_kept (h : Kept b0 a j) : Kept b0 a (checkStep1 e j) := h.quiet (checkStep1_quiet (.refl _))

theorem startNext_kept (h : Kept b0 a j) : Kept b0 a (startNext e j) := h.quiet (startNext_quiet (.refl _))

theorem beginUnload_kept (h : Kept b0 a j) : Kept b0 a (beginUnload e d j) := h.same rfl

theorem enterTransfer_kept (h : Kept b0 a j) : Kept b0 a (enterTransfer d j) := h.quiet (enterTransfer_quiet (.refl _))

theorem endWork_kept (h : Kept b0 a j) : Kept b0 a (endWork e d j) :=
  h.quiet (afterSegment_quiet (release_quiet (.refl _)))

theorem withdrawNaming_kept (h : Kept b0 a j) : Kept b0 a (withdrawNaming r j) := h.same rfl

theorem leaveService_kept (h : Kept b0 a j) : Kept b0 a (leaveService e d j) := h.quiet (leaveService_quiet (.refl _))

theorem toStep_kept {n : Nat} (h : Kept b0 a j) : Kept b0 a (toStep e d n j) := h.same rfl

/-! ## Inventory -/

theorem haltOrder_kept (h : Kept b0 a j) : Kept b0 a (haltOrder j) := h.same rfl

theorem pickerFault_kept {x : PickerReason} {b : Bool} (h : Kept b0 a j) : Kept b0 a (pickerFault x b j) := h.same rfl

theorem setTask_kept {t : InvTask} (h : Kept b0 a j) : Kept b0 a (setTask e t j) := h.same rfl

theorem nextDrive_kept {n : Nat} (h : Kept b0 a j) : Kept b0 a (nextDrive e n j) := by
  unfold nextDrive; split <;> exact setTask_kept h

theorem beginInventory_kept (h : Kept b0 a j) : Kept b0 a (beginInventory e j) := by
  unfold beginInventory; split
  · exact setTask_kept h
  · exact nextDrive_kept h

theorem checkCollect_kept (h : Kept b0 a j) : Kept b0 a (checkCollect e j) := by
  unfold checkCollect
  repeat' split
  all_goals first | exact h | exact h.same rfl

theorem orphan_kept {p : Nat} (h : Kept b0 a j) : Kept b0 a (orphan d p j) := h.same rfl

theorem passOver_kept (h : Kept b0 a j) : Kept b0 a (passOver e d j) := by
  unfold passOver
  refine nextDrive_kept ?_
  split
  · exact h.same rfl
  · exact h

theorem inventoryUnload_kept (h : Kept b0 a j) : Kept b0 a (inventoryUnload e d j) := by
  unfold inventoryUnload
  dsimp only
  split
  · exact passOver_kept h
  · exact checkCollect_kept (beginUnload_kept (setTask_kept h))

theorem passDrive_kept (h : Kept b0 a j) : Kept b0 a (passDrive e d j) := by
  unfold passDrive; split
  · exact passOver_kept h
  · exact h

theorem recordSlot_kept {n : Nat} {f : Option Found} (h : Kept b0 a j) : Kept b0 a (recordSlot n f j) := by
  unfold recordSlot
  repeat' split
  all_goals first | exact h | exact h.same rfl

theorem endInventory_kept (h : Kept b0 a j) : Kept b0 a (endInventory e j) :=
  examineHead_kept (sweep_kept (retestAll_kept (startNext_kept (h.same rfl))))

theorem slotCheck_kept {f : Option Found} (h : Kept b0 a j) : Kept b0 a (slotCheck e f j) := by
  unfold slotCheck
  dsimp only
  split
  · split
    · split
      · exact setTask_kept (h.same rfl)
      · split
        · exact setTask_kept (h.same rfl)
        · exact pickerFault_kept (h.same rfl)
    · split
      · split
        · exact nextDrive_kept (orphan_kept (h.same rfl))
        · exact inventoryUnload_kept (h.same rfl)
      · exact nextDrive_kept h
    · split
      · exact setTask_kept (recordSlot_kept (h.same rfl))
      · exact endInventory_kept (recordSlot_kept (h.same rfl))
    · exact h
  · exact h

/-! ## Faults -/

theorem handBackRequest_kept {p : Option Pass} {n : Nat} (h : Kept b0 a j) : Kept b0 a (handBackRequest e r p n j) := by
  unfold handBackRequest
  split
  · exact h
  · dsimp only
    split
    · exact stopSegment_kept (discardPass_kept h)
    · split
      · exact joinList_kept (discardPass_kept h).onSegment
      · refine finishSegment_kept ?_
        split
        · exact discardSegment_kept (discardPass_kept h)
        · exact discardPass_kept h

theorem handBack_kept {w : WorkRef} {o : Option Segment} {p : Option Pass} {n : Nat} (h : Kept b0 a j) :
    Kept b0 a (handBack e w o p n j) := by
  unfold handBack
  split
  · exact discardPass_kept h
  · exact handBackRequest_kept h
  · exact takeBack_kept h

theorem faultOrder_kept {x : DriveReason} (h : Kept b0 a j) : Kept b0 a (faultOrder e d x j) := by
  unfold faultOrder
  split
  · exact h
  · dsimp only
    repeat' split
    all_goals first
      | exact sweepIfInSlot_kept (removeOrder_kept h)
      | exact sweepIfInSlot_kept (removeOrder_kept (h.same rfl))
      | exact sweepIfInSlot_kept (h.same rfl)

theorem hold_kept {p : Nat} (h : Kept b0 a j) : Kept b0 a (hold e d p j) := retestAll_kept (h.same rfl)

theorem faultPlatter_kept {x : DriveReason} (h : Kept b0 a j) : Kept b0 a (faultPlatter e d x j) := by
  unfold faultPlatter
  dsimp only
  repeat' split
  all_goals first | exact h | exact h.same rfl | exact passDrive_kept (hold_kept h)

theorem driveFault_kept {x : DriveReason} (h : Kept b0 a j) : Kept b0 a (driveFault e d x j) := by
  unfold driveFault
  dsimp only
  have h0 : Kept b0 a (j.onDrive d (Drive.faulted x)) := h.same rfl
  generalize (j.drive d).work = w
  generalize (j.drive d).parked = c
  generalize (j.drive d).preempt = s
  cases w <;> cases c <;> cases s <;> dsimp only
  all_goals try refine sweepIfInSlot_kept ?_
  all_goals refine faultPlatter_kept (faultOrder_kept ?_)
  all_goals try refine considerPreempt_kept ?_
  all_goals try refine handBack_kept ?_
  all_goals first | exact h0 | exact handBack_kept h0

theorem endStep1_kept (h : Kept b0 a j) : Kept b0 a (endStep1 e d j) := by
  unfold endStep1
  repeat' split
  all_goals first | exact h | exact removeOrder_kept h | exact removeOrder_kept (h.same rfl)

theorem ejectTaken_kept (h : Kept b0 a j) : Kept b0 a (ejectTaken e d j) := by
  unfold ejectTaken
  dsimp only
  have h0 : Kept b0 a (j.onDrive d fun x => { x with ejecting := false, lastEject := some .taken, ejected := true, limit := none }) :=
    h.same rfl
  have h1 : ∀ k, Kept b0 a k → Kept b0 a (if (k.orderOf d).isSome then checkStep1 e k
      else if k.picker.inventory.any (InvTask.willCollect d) then checkCollect e k
      else placeReturnHome e d false k) := by
    intro k hk
    repeat' split
    all_goals first | exact checkStep1_kept hk | exact checkCollect_kept hk | exact placeReturnHome_kept hk
  split
  · refine examineHead_kept (h1 _ ?_)
    split
    · exact h0.same rfl
    · exact h0
  · refine h1 _ ?_
    split
    · exact h0.same rfl
    · exact h0

theorem ejectNotTaken_kept (h : Kept b0 a j) : Kept b0 a (ejectNotTaken e d j) := by
  unfold ejectNotTaken
  dsimp only
  refine passDrive_kept ?_
  split
  · exact h.same rfl
  · split
    · exact hold_kept (endStep1_kept (h.same rfl))
    · exact endStep1_kept (h.same rfl)

theorem clearDrive_kept (h : Kept b0 a j) : ∀ k, clearDrive e d j = .ok k → Kept b0 a k := by
  intro k hk
  unfold clearDrive at hk
  dsimp only at hk
  repeat' split at hk
  all_goals cases hk
  · exact examineHead_kept (driveFree_kept (h.same rfl))
  · exact h.same rfl

theorem takeOffline_kept (h : Kept b0 a j) : ∀ k, takeOffline e d j = .ok k → Kept b0 a k := by
  intro k hk
  unfold takeOffline at hk
  dsimp only at hk
  split at hk
  · cases hk
  · cases hk
    split
    · refine leaveService_kept ?_
      split
      · exact considerPreempt_kept (h.same rfl)
      · exact h.same rfl
    · split
      · exact considerPreempt_kept (h.same rfl)
      · exact h.same rfl

theorem returnDrive_kept (h : Kept b0 a j) : ∀ k, returnDrive e d j = .ok k → Kept b0 a k := by
  intro k hk
  unfold returnDrive at hk
  split at hk
  · cases hk
  · cases hk
    exact examineHead_kept (driveFree_kept (h.same rfl))

/-! ## Drives -/

theorem spinUp_kept (h : Kept b0 a j) : Kept b0 a (spinUp e d j) := by
  unfold spinUp
  dsimp only
  repeat' split
  all_goals first | exact h | exact enterTransfer_kept (h.same rfl) | exact driveFree_kept (h.same rfl)

theorem spinDown_kept {b : Bool} (h : Kept b0 a j) : Kept b0 a (spinDown e d b j) := by
  unfold spinDown
  dsimp only
  repeat' split
  all_goals first | exact h | exact checkCollect_kept (checkStep1_kept (h.same rfl)) | exact driveFault_kept h

theorem continuePass_kept (h : Kept b0 a j) : Kept b0 a (continuePass e d j) := by
  unfold continuePass
  split
  · exact h.quiet (dispatch_quiet (park_quiet (.refl _)))
  · exact h.quiet (beginBurst_quiet ((Quiet.refl _).onDrive rfl))

theorem writeOn_kept (h : Kept b0 a j) : Kept b0 a (writeOn e d j) := by
  unfold writeOn
  dsimp only
  split
  · split
    · exact considerPreempt_kept (h.same rfl)
    · exact h.same rfl
  · exact continuePass_kept h

theorem readBurstEnd_kept {w : Work} {q : Request} {m : List (Nat × MediaRead)} (h : Kept b0 a j) :
    Kept b0 a (readBurstEnd e d w r q g m j) := by
  unfold readBurstEnd
  dsimp only
  have h1 := h.setRetain (l := installAll e j (readBurst j.retain q.feeClass g w.fill m w.reached).installs
    (readBurst j.retain q.feeClass g w.fill m w.reached).cache) fun w => (readBurst_cache w).installAll
  split
  · exact endWork_kept (stopSegment_kept (Kept.onSegment (h1.same rfl)))
  · split
    · exact endWork_kept (finishSegment_kept (Kept.onSegment (h1.same rfl)))
    · exact endWork_kept (finishSegment_kept (Kept.onSegment (h1.same rfl)))
    · exact endWork_kept (joinList_kept (Kept.onSegment (Kept.onSegment (h1.same rfl))))
    · split
      · exact endWork_kept (finishSegment_kept (Kept.onSegment (h1.same rfl)))
      · exact continuePass_kept (Kept.onSegment (h1.same rfl))

theorem writeBurstEnd_kept {q : Request} (h : Kept b0 a j) : Kept b0 a (writeBurstEnd e d r q g j) := by
  unfold writeBurstEnd
  dsimp only
  split
  · exact endWork_kept (discardStopped_kept (stopSegment_kept (Kept.onSegment (h.same rfl))))
  · exact writeOn_kept (Kept.onSegment (h.same rfl))

theorem droppedBurstEnd_kept {w : Work} {m : List (Nat × MediaRead)} (h : Kept b0 a j) :
    Kept b0 a (droppedBurstEnd e d w g m j) := by
  unfold droppedBurstEnd
  dsimp only
  split
  · exact endWork_kept (discardStopped_kept (h.same rfl))
  · exact endWork_kept (Kept.same (h.setRetain fun w => (readBurst_cache w).installAll) rfl)

theorem flushBurstEnd_kept {n k : Nat} (h : Kept b0 a j) : Kept b0 a (flushBurstEnd e d n k j) := by
  unfold flushBurstEnd
  refine writeOn_kept ?_
  split
  · exact Kept.same (h.onLine (s := n) (n := k) (f := fun l => { l with state := .verifying }) fun _ => rfl) rfl
  · exact h.same rfl

theorem burstEnd_kept {m : List (Nat × MediaRead)} (h : Kept b0 a j) : Kept b0 a (burstEnd e d m j) := by
  unfold burstEnd
  dsimp only
  split
  · split
    · exact droppedBurstEnd_kept h
    · exact flushBurstEnd_kept h
    · split
      · exact h
      · split
        · exact readBurstEnd_kept h
        · exact writeBurstEnd_kept h
  · exact h

theorem beginPass_kept {p : Pass} {n t : Nat} (h : Kept b0 a j) : Kept b0 a (beginPass e d p n t j) :=
  h.quiet (seek_quiet ((Quiet.refl _).onDrive rfl))

theorem updateCache_kept {q : Request} (h : Kept b0 a j) : Kept b0 a (writeVerifyEnd.updateCache q g j) := by
  unfold writeVerifyEnd.updateCache
  split
  · exact h.setRetain fun w => w.update _ _ _ _
  · exact h

theorem writeVerifyEnd_kept {b : Bool} {q : Request} {p : Pass} (h : Kept b0 a j) :
    Kept b0 a (writeVerifyEnd e d b r q g p j) := by
  unfold writeVerifyEnd
  split
  · exact endWork_kept (discardStopped_kept (stopSegment_kept h))
  · split
    · split
      · dsimp only
        split
        · exact beginPass_kept (updateCache_kept h).onSegment
        · exact endWork_kept (joinList_kept (updateCache_kept h).onSegment)
      · exact endWork_kept (finishSegment_kept (updateCache_kept h))
      · exact endWork_kept (finishSegment_kept h)
    · split
      · exact enterTransfer_kept (Kept.onSegment (h.same rfl))
      · refine endWork_kept (finishSegment_kept ?_)
        split
        · exact discardSegment_kept h
        · exact h

theorem flushVerifyEnd_kept {b : Bool} {f : Flush} {p : Pass} {n : Nat} (h : Kept false a j) :
    Kept false a (flushVerifyEnd e d b f p n j) := by
  unfold flushVerifyEnd
  dsimp only
  have h1 : Kept false a (j.onLine f.surface f.line fun l => { l with state := .flushing }) := h.onLine fun _ => rfl
  have h2 : Kept false a (j.onLine f.surface f.line fun l => { l with state := .flushing, attempts := n + 1 }) :=
    h.onLine fun _ => rfl
  split
  · split
    · split
      · exact beginPass_kept (h1.same rfl)
      · exact endWork_kept (push_kept (h1.same rfl))
    · exact testFlush_kept (examineHead_kept (endWork_kept (sealBlocks_kept h)))
  · split
    · exact enterTransfer_kept (h2.same rfl)
    · exact examineHead_kept (endWork_kept (pinLine_kept h))

theorem verifyEnd_kept {b : Bool} (h : Kept false a j) : Kept false a (verifyEnd e d b j) := by
  unfold verifyEnd
  dsimp only
  have h0 : Kept false a (j.onDrive d fun x => { x with lastUse := e.now }) := h.same rfl
  split
  · split
    · exact endWork_kept (discardStopped_kept h0)
    · split
      · exact flushVerifyEnd_kept h0
      · exact h0
    · split
      · exact writeVerifyEnd_kept h0
      · exact h0
  · exact h

/-! ## The picker -/

theorem arrives_kept (h : Kept b0 a j) : Kept b0 a (arrives e j) := by
  unfold arrives
  repeat' split
  all_goals first | exact h | exact checkStep1_kept (h.same rfl) | exact checkCollect_kept (h.same rfl)

theorem gripsAtDrive_kept (h : Kept b0 a j) : Kept b0 a (gripsAtDrive e j) := by
  unfold gripsAtDrive
  dsimp only
  split
  · split
    · exact h
    · split
      · refine examineHead_kept ?_
        repeat' split
        all_goals first | exact h.same rfl | exact driveFree_kept (h.same rfl)
      · repeat' split
        all_goals first | exact h.same rfl | exact driveFree_kept (h.same rfl)
  · split
    · split
      · exact setTask_kept (driveFree_kept (h.same rfl))
      · exact h
    · exact h

theorem endReturnHome_kept (h : Kept b0 a j) : Kept b0 a (endReturnHome e d j) := removeOrder_kept (h.same rfl)

theorem orient_kept {p : Nat} (h : Kept b0 a j) : Kept b0 a (orient d p j) := by
  unfold orient; split
  · exact h.same rfl
  · exact h

theorem releasesInSlot_kept (h : Kept b0 a j) : Kept b0 a (releasesInSlot e j) := by
  unfold releasesInSlot
  dsimp only
  split
  · split
    · exact h
    · split
      · exact examineHead_kept (sweep_kept (endReturnHome_kept (h.same rfl)))
      · exact sweep_kept (h.same rfl)
  · split
    · exact nextDrive_kept (h.same rfl)
    · exact nextDrive_kept (orient_kept (h.same rfl))
    · exact h

theorem gripsIncoming_kept (h : Kept b0 a j) : Kept b0 a (gripsIncoming e j) := by
  unfold gripsIncoming
  repeat' split
  all_goals first | exact h | exact h.same rfl

theorem flipEnds_kept (h : Kept b0 a j) : Kept b0 a (flipEnds e j) := by
  unfold flipEnds
  repeat' split
  all_goals first | exact h | exact h.same rfl

theorem seated_kept (h : Kept b0 a j) : Kept b0 a (seated e j) := by
  unfold seated
  dsimp only
  split
  · split
    · exact h
    · exact removeOrder_kept (h.same rfl)
  · split
    · split
      · exact nextDrive_kept (h.same rfl)
      · exact h
    · exact h

theorem stepOverrun_kept (h : Kept b0 a j) : Kept b0 a (stepOverrun j) := by
  unfold stepOverrun
  split
  · exact pickerFault_kept h
  · exact h

theorem gripFails_kept (h : Kept b0 a j) : Kept b0 a (gripFails e j) := by
  unfold gripFails
  dsimp only
  repeat' split
  all_goals first | exact h | exact h.same rfl | exact retestAll_kept (h.same rfl)

theorem handBackMissing_kept (h : Kept b0 a j) : Kept b0 a (handBackMissing e d j) := by
  unfold handBackMissing
  dsimp only
  refine driveFree_kept ?_
  split
  · split
    · exact takeBack_kept (h.same rfl)
    · exact joinList_kept (Kept.onSegment (h.same rfl))
  · exact h.same rfl

theorem goOn_kept {n : Nat} (h : Kept b0 a j) : Kept b0 a (goOn e d n j) := checkStep1_kept (h.same rfl)

theorem goParked_kept (h : Kept b0 a j) : Kept b0 a (goParked e j) := startNext_kept (h.same rfl)

theorem afterRecovery_kept {p : Option Nat} (h : Kept b0 a j) : Kept b0 a (afterRecovery e p j) := by
  unfold afterRecovery
  dsimp only
  repeat' split
  all_goals first
    | exact goParked_kept h | exact goOn_kept h | exact goOn_kept (h.same rfl)
    | exact examineHead_kept (endReturnHome_kept (h.same rfl))
    | exact goParked_kept (handBackMissing_kept (h.same rfl))

theorem inventoryOn_kept (h : Kept b0 a j) : Kept b0 a (inventoryOn e j) := by
  unfold inventoryOn
  dsimp only
  repeat' split
  all_goals first
    | exact beginInventory_kept (h.same rfl) | exact nextDrive_kept (h.same rfl)
    | exact checkCollect_kept (h.same rfl)

theorem endRecovery_kept {p : Option Nat} (h : Kept b0 a j) : Kept b0 a (endRecovery e p j) := by
  unfold endRecovery
  dsimp only
  split
  · exact inventoryOn_kept (h.same rfl)
  · exact afterRecovery_kept (h.same rfl)

theorem clearPicker_kept {s : Sensor} (h : Kept b0 a j) : ∀ k, clearPicker e s j = .ok k → Kept b0 a k := by
  intro k hk
  unfold clearPicker at hk
  dsimp only at hk
  repeat' split at hk
  all_goals cases hk
  · exact h.same rfl
  · exact endRecovery_kept (h.same rfl)

theorem recoveryRelease_kept {b : Bool} (h : Kept b0 a j) : Kept b0 a (recoveryRelease e b j) := by
  unfold recoveryRelease
  dsimp only
  split
  · split
    · split
      · refine endRecovery_kept ?_
        repeat' split
        all_goals first | exact orient_kept (h.same rfl) | exact h.same rfl | exact sweep_kept (h.same rfl)
      · exact pickerFault_kept h
    · exact h
  · exact h

theorem doorOpens_kept (h : Kept b0 a j) : Kept b0 a (doorOpens j) := by
  unfold doorOpens
  dsimp only
  split <;> exact h.same rfl

theorem doorCloses_kept (h : Kept b0 a j) : Kept b0 a (doorCloses e j) := by
  unfold doorCloses
  split
  · exact h.same rfl
  · exact h

theorem resumePicker_kept (h : Kept b0 a j) : Kept b0 a (resumePicker e j) := by
  unfold resumePicker
  dsimp only
  repeat' split
  all_goals first
    | exact h | exact h.same rfl | exact inventoryOn_kept (h.same rfl) | exact goOn_kept (h.same rfl) | exact goParked_kept (h.same rfl)

theorem settleEnds_kept (h : Kept b0 a j) : Kept b0 a (settleEnds e j) := by
  unfold settleEnds
  dsimp only
  repeat' split
  all_goals first | exact h | exact h.same rfl | exact resumePicker_kept (h.same rfl)

theorem resumeCommand_kept (h : Kept b0 a j) : ∀ k, resumeCommand e j = .ok k → Kept b0 a k := by
  intro k hk
  unfold resumeCommand at hk
  repeat' split at hk
  all_goals cases hk
  exact resumePicker_kept h

/-! ## Requests and the other events -/

theorem handOn_kept {x : SegRef × Segment} (h : Kept b0 a j) : Kept b0 a (handOn e j x) := by
  unfold handOn
  split
  · exact serveRam_kept h
  · exact joinList_kept h

theorem cancelOrder_kept (h : Kept b0 a j) : Kept b0 a (cancelOrder d j) := by
  unfold cancelOrder
  repeat' split
  all_goals first | exact h | exact h.same rfl

theorem goOnCancelled_kept {l : List Order} (h : Kept b0 a j) : Kept b0 a (goOnCancelled e l j) := by
  refine foldl_kept (fun j o h => ?_) l ?_
  · unfold afterCancel
    refine sweepIfInSlot_kept ?_
    repeat' split
    all_goals first | exact h | exact driveFree_kept h
  · split
    · exact h.quiet (pickerDone_quiet (.refl _))
    · exact h

theorem sweepUnbound_kept {l : List (Option Nat)} (h : Kept b0 a j) : Kept b0 a (sweepUnbound e l j) :=
  foldl_kept (fun _ _ h => sweepIfInSlot_kept h) l h

theorem expireSegment_kept (h : Kept b0 a j) : Kept b0 a (expireSegment j r) := by
  unfold expireSegment
  repeat' split
  all_goals first
    | exact h | exact withdrawNaming_kept (stopSegment_kept h) | exact stopSegment_kept h
    | exact Kept.same (stopSegment_kept h) rfl
    | exact cancelOrder_kept (Kept.same (stopSegment_kept h) rfl)

theorem endWait_kept {q : Request} {st : Status} (h : Kept b0 a j) : Kept b0 a (endWait e q st j) := by
  unfold endWait
  dsimp only
  split
  · exact examineHead_kept (h.onRequest fun _ => rfl)
  · exact h.onRequest fun _ => rfl

theorem requestDeadline_kept {i : Fin 7} {t : Fin 8} (h : Kept b0 a j) : Kept b0 a (requestDeadline e i t j) := by
  unfold requestDeadline
  repeat' split
  all_goals first
    | exact h | exact endWait_kept h
    | exact sweepUnbound_kept (goOnCancelled_kept
        (foldl_kept (fun _ _ h => expireSegment_kept h) _ (h.onRequest fun _ => rfl)))

theorem stagingLimit_kept {i : Fin 7} {t : Fin 8} (h : Kept b0 a j) : Kept b0 a (stagingLimit e i t j) := by
  unfold stagingLimit
  repeat' split
  all_goals first | exact h | exact endWait_kept h

theorem dwellEnds_kept (h : Kept b0 a j) : Kept b0 a (dwellEnds e d j) := by
  unfold dwellEnds
  split
  · exact h.quiet (pull_quiet ((Quiet.refl _).onDrive rfl))
  · exact h

theorem spinUpOverrun_kept (h : Kept b0 a j) : Kept b0 a (spinUpOverrun e d j) := by
  unfold spinUpOverrun; split
  · exact driveFault_kept h
  · exact h

theorem spinDownOverrun_kept (h : Kept b0 a j) : Kept b0 a (spinDownOverrun e d j) := by
  unfold spinDownOverrun; split
  · exact driveFault_kept h
  · exact h

theorem hardwareReport_kept (h : Kept b0 a j) : Kept b0 a (hardwareReport e d j) := by
  unfold hardwareReport; split
  · exact h
  · exact driveFault_kept h

theorem ejectEnds_kept {b : Bool} (h : Kept b0 a j) : Kept b0 a (ejectEnds e d b j) := by
  unfold ejectEnds
  repeat' split
  all_goals first | exact h | exact ejectTaken_kept h | exact ejectNotTaken_kept h

theorem retryQuarantine_kept {n : Nat} {q : Quarantine} (h : Kept b0 a j) : Kept b0 a (retryQuarantine e n q j) :=
  examineHead_kept (testFlush_kept (Kept.onSurface
    (h.onLine (s := n) (n := q.line) (f := fun l => { l with state := .filling, due := some e.now, attempts := 0 })
      fun _ => rfl) fun _ _ => rfl))

theorem discardQuarantine_kept {n : Nat} (h : Kept b0 a j) : Kept b0 a (discardQuarantine e n j) :=
  examineHead_kept (Kept.onSurface (h.setLines (l := j.lines.filter fun l => l.surface != n) fun w => w.filter _)
    fun _ _ => rfl)

theorem ageLimit_kept {n k : Nat} (h : Kept b0 a j) : Kept b0 a (ageLimit e n k j) := testFlush_kept (markDue_kept h)

theorem testAllFlushes_kept (h : Kept b0 a j) : Kept b0 a (testAllFlushes e j) := h.quiet (testAllFlushes_quiet (.refl _))

theorem flushAllLines_kept (h : Kept b0 a j) : Kept b0 a (flushAllLines e j) := testAllFlushes_kept (markDue_kept h)

theorem enterLow_kept (h : Kept b0 a j) : Kept b0 a (enterLow e j) := testAllFlushes_kept (markDue_kept h)

theorem leaveLow_kept (h : Kept b0 a j) : Kept b0 a (leaveLow j) := endAwaiting_kept h

end ops

end Sys2Proof.Machine
end

