-- ==== Sys2Proof/Laws/PerInstr.lean ====
section
/-! SUPPORT. The family `WellFormedCmd`: a well-formed control row carries a code of the command table exactly when its
command is one of the table (R171 check 1). -/

namespace Sys2Proof.Laws.WellFormedCmd

open Sys2Proof Sys2Proof.Machine

/-- A well-formed control row carries a code of the command table exactly when its command is one of the table. -/
def Statement (i : Instr) : Prop :=
  ∀ src k, i.asCmd = some (src, k) → i.wellFormed = true → (cmdCode k ∈ knownCodes ↔ cmdUnknown k = false)

/-- A row that is no control row. -/
theorem of_none {i : Instr} (h : i.asCmd = none) : Statement i := fun s k e _ => by rw [h] at e; cases e

/-- A control row of a command of the table. -/
theorem of_known {i : Instr} {src : Src} {k : Cmd} (h : i.asCmd = some (src, k)) (hk : cmdCode k ∈ knownCodes)
    (u : cmdUnknown k = false) : Statement i := fun s k' e _ => by
  rw [h] at e
  obtain ⟨-, rfl⟩ := Prod.mk.inj (Option.some.inj e)
  exact iff_of_true hk u

theorem read (src : Src) (lba length : Nat) : Statement (.read src lba length) :=
  of_none rfl

theorem write (src : Src) (lba length : Nat) (data : List Block) : Statement (.write src lba length data) :=
  of_none rfl

theorem controlWindowRead (src : Src) (block length : Nat) : Statement (.controlWindowRead src block length) :=
  of_none rfl

theorem controlWriteOtherBlock (src : Src) (block length : Nat) :
    Statement (.controlWriteOtherBlock src block length) :=
  of_none rfl

theorem unknownCommand (src : Src) (code : Byte) : Statement (.unknownCommand src code) :=
  fun s k e w => by
  obtain ⟨-, rfl⟩ := Prod.mk.inj (Option.some.inj (show some (src, Cmd.unknown code) = some (s, k) from e))
  have w' : (!knownCodes.contains code) = true := w
  have hc : code ∉ knownCodes := by simpa using w'
  exact iff_of_false hc (fun x => nomatch (show true = false from x))

theorem setWindow (src : Src) (window enabled feeClass express writes : Byte) :
    Statement (.setWindow src window enabled feeClass express writes) :=
  of_known rfl (show (0x01 : Byte) ∈ knownCodes by decide) rfl

theorem setFixedRange (src : Src) (index htype readRoute writeRoute : Byte) :
    Statement (.setFixedRange src index htype readRoute writeRoute) :=
  of_known rfl (show (0x02 : Byte) ∈ knownCodes by decide) rfl

theorem setVariableRange (src : Src) (index valid first last htype readRoute writeRoute : Byte) :
    Statement (.setVariableRange src index valid first last htype readRoute writeRoute) :=
  of_known rfl (show (0x03 : Byte) ∈ knownCodes by decide) rfl

theorem setMapControl (src : Src) (mapEnable fixedEnable defaultType routing : Byte) :
    Statement (.setMapControl src mapEnable fixedEnable defaultType routing) :=
  of_known rfl (show (0x04 : Byte) ∈ knownCodes by decide) rfl

theorem setMirrorPair (src : Src) (index valid primary mirror : Byte) :
    Statement (.setMirrorPair src index valid primary mirror) :=
  of_known rfl (show (0x05 : Byte) ∈ knownCodes by decide) rfl

theorem setTariff (src : Src) (cls : Byte) (f : BitVec 16) (n g : Byte) (k : BitVec 16) (sur : Byte) (c : BitVec 24) :
    Statement (.setTariff src cls f n g k sur c) :=
  of_known rfl (show (0x10 : Byte) ∈ knownCodes by decide) rfl

theorem setPageSize (src : Src) (p : Byte) : Statement (.setPageSize src p) :=
  of_known rfl (show (0x11 : Byte) ∈ knownCodes by decide) rfl

theorem applyTariff (src : Src) : Statement (.applyTariff src) :=
  of_known rfl (show (0x12 : Byte) ∈ knownCodes by decide) rfl

theorem closeDay (src : Src) (apply : Byte) : Statement (.closeDay src apply) :=
  of_known rfl (show (0x13 : Byte) ∈ knownCodes by decide) rfl

theorem ackClose (src : Src) (day : BitVec 16) : Statement (.ackClose src day) :=
  of_known rfl (show (0x14 : Byte) ∈ knownCodes by decide) rfl

theorem setService (src : Src) (mask dispatch tier back preempt autoResume : Byte) :
    Statement (.setService src mask dispatch tier back preempt autoResume) :=
  of_known rfl (show (0x20 : Byte) ∈ knownCodes by decide) rfl

theorem setTiming (src : Src) (dwell : BitVec 16) (lowWater : Byte) (lineAge staging request : BitVec 16) :
    Statement (.setTiming src dwell lowWater lineAge staging request) :=
  of_known rfl (show (0x21 : Byte) ∈ knownCodes by decide) rfl

theorem flushAll (src : Src) : Statement (.flushAll src) :=
  of_known rfl (show (0x22 : Byte) ∈ knownCodes by decide) rfl

theorem resumePicker (src : Src) : Statement (.resumePicker src) :=
  of_known rfl (show (0x23 : Byte) ∈ knownCodes by decide) rfl

theorem clearDrive (src : Src) (drive : Byte) : Statement (.clearDrive src drive) :=
  of_known rfl (show (0x24 : Byte) ∈ knownCodes by decide) rfl

theorem clearPicker (src : Src) (sensor : Sensor) : Statement (.clearPicker src sensor) :=
  of_known rfl (show (0x25 : Byte) ∈ knownCodes by decide) rfl

theorem takeOffline (src : Src) (drive : Byte) : Statement (.takeOffline src drive) :=
  of_known rfl (show (0x26 : Byte) ∈ knownCodes by decide) rfl

theorem returnDrive (src : Src) (drive : Byte) : Statement (.returnDrive src drive) :=
  of_known rfl (show (0x26 : Byte) ∈ knownCodes by decide) rfl

theorem releaseQuarantineRetry (src : Src) (surface : Byte) : Statement (.releaseQuarantineRetry src surface) :=
  of_known rfl (show (0x30 : Byte) ∈ knownCodes by decide) rfl

theorem releaseQuarantineDiscard (src : Src) (surface : Byte) :
    Statement (.releaseQuarantineDiscard src surface) :=
  of_known rfl (show (0x30 : Byte) ∈ knownCodes by decide) rfl

theorem restoreSeal (src : Src) (surface : Byte) (mark : BitVec 24) :
    Statement (.restoreSeal src surface mark) :=
  of_known rfl (show (0x31 : Byte) ∈ knownCodes by decide) rfl

theorem setControlSet (src : Src) (members : Byte) : Statement (.setControlSet src members) :=
  of_known rfl (show (0x40 : Byte) ∈ knownCodes by decide) rfl

theorem raiseLock (src : Src) (level : Byte) : Statement (.raiseLock src level) :=
  of_known rfl (show (0x41 : Byte) ∈ knownCodes by decide) rfl

theorem frontBusReset : Statement .frontBusReset :=
  of_none rfl

theorem powerOn (batteryGood doorOpen : Bool) (gripped : Option Nat) (d0 d1 d2 d3 : Option Nat) :
    Statement (.powerOn batteryGood doorOpen gripped d0 d1 d2 d3) :=
  of_none rfl

theorem batteryGoodFall : Statement .batteryGoodFall :=
  of_none rfl

theorem batteryGoodRise : Statement .batteryGoodRise :=
  of_none rfl

theorem doorOpening : Statement .doorOpening :=
  of_none rfl

theorem doorClosing : Statement .doorClosing :=
  of_none rfl

theorem settleEnd : Statement .settleEnd :=
  of_none rfl

theorem requestDeadlineExpiry (initiator : Fin 7) (tag : Fin 8) :
    Statement (.requestDeadlineExpiry initiator tag) :=
  of_none rfl

theorem stagingWaitLimitExpiry (initiator : Fin 7) (tag : Fin 8) :
    Statement (.stagingWaitLimitExpiry initiator tag) :=
  of_none rfl

theorem lineAgeLimitExpiry (surface line : Nat) : Statement (.lineAgeLimitExpiry surface line) :=
  of_none rfl

theorem dwellDeadlineExpiry (drive : Fin 4) : Statement (.dwellDeadlineExpiry drive) :=
  of_none rfl

theorem spinUpComplete (drive : Fin 4) : Statement (.spinUpComplete drive) :=
  of_none rfl

theorem spinUpLimit (drive : Fin 4) : Statement (.spinUpLimit drive) :=
  of_none rfl

theorem spinDownComplete (drive : Fin 4) (ejected : Bool) : Statement (.spinDownComplete drive ejected) :=
  of_none rfl

theorem spinDownLimit (drive : Fin 4) : Statement (.spinDownLimit drive) :=
  of_none rfl

theorem driveHardwareReport (drive : Fin 4) : Statement (.driveHardwareReport drive) :=
  of_none rfl

theorem ejectAttemptReport (drive : Fin 4) (taken : Bool) : Statement (.ejectAttemptReport drive taken) :=
  of_none rfl

theorem ejectAttemptLimit (drive : Fin 4) : Statement (.ejectAttemptLimit drive) :=
  of_none rfl

theorem burstEnd (drive : Fin 4) (media : List (Nat × MediaRead)) : Statement (.burstEnd drive media) :=
  of_none rfl

theorem verifyEnd (drive : Fin 4) (passed : Bool) : Statement (.verifyEnd drive passed) :=
  of_none rfl

theorem pickerArrivesAtDrive : Statement .pickerArrivesAtDrive :=
  of_none rfl

theorem pickerGripAtDrive : Statement .pickerGripAtDrive :=
  of_none rfl

theorem platterReleaseInSlot : Statement .platterReleaseInSlot :=
  of_none rfl

theorem incomingPlatterGrip : Statement .incomingPlatterGrip :=
  of_none rfl

theorem pickerGripFailure : Statement .pickerGripFailure :=
  of_none rfl

theorem pickerFlipEnd : Statement .pickerFlipEnd :=
  of_none rfl

theorem platterSeated : Statement .platterSeated :=
  of_none rfl

theorem pickerStepLimit : Statement .pickerStepLimit :=
  of_none rfl

theorem pickerRecoveryRelease (released : Bool) : Statement (.pickerRecoveryRelease released) :=
  of_none rfl

theorem inventorySlotCheck (found : Option Found) : Statement (.inventorySlotCheck found) :=
  of_none rfl

theorem statusSend (initiator : Fin 7) (tag : Fin 8) : Statement (.statusSend initiator tag) :=
  of_none rfl

theorem powerLoss : Statement .powerLoss :=
  of_none rfl

end Sys2Proof.Laws.WellFormedCmd
end

