-- ==== Sys2Proof/Laws/Record.lean ====
section
/-! SUPPORT. The bytes of a command record: what stands at a byte of a block built from a list of bytes (R178). -/

namespace Sys2Proof.Machine

theorem byteAt_blockOf (l : List Byte) (k : Nat) (hk : k < 1024) : byteAt (blockOf l) k = l.getD k 0 := by
  induction l generalizing k with
  | nil =>
    apply BitVec.eq_of_getLsbD_eq
    intro i hi
    simp [byteAt, blockOf]
  | cons b l ih =>
    cases k with
    | zero =>
      apply BitVec.eq_of_getLsbD_eq
      intro i hi
      simp [byteAt, blockOf, hi, show i < 8192 by omega]
    | succ k =>
      rw [List.getD_cons_succ, ← ih k (by omega)]
      apply BitVec.eq_of_getLsbD_eq
      intro i hi
      have h1 : 8 * (k + 1) + i < 8192 := by omega
      have h2 : ¬ 8 * (k + 1) + i < 8 := by omega
      have h3 : 8 * (k + 1) + i - 8 = 8 * k + i := by omega
      have h4 : 8 * k + i < 8192 := by omega
      simp only [byteAt, blockOf, BitVec.getLsbD_extractLsb', BitVec.getLsbD_or, BitVec.getLsbD_setWidth, hi, h1, h2, h3,
        BitVec.getLsbD_of_ge b (8 * (k + 1) + i) (by omega), BitVec.getLsbD_shiftLeft, decide_true, decide_false,
        Bool.and_false, Bool.false_or, Bool.not_false, Bool.true_and]

theorem pairAt_eq (b : Block) (k : Nat) : pairAt b k = (byteAt b (k + 1)) ++ (byteAt b k) := by
  apply BitVec.eq_of_getLsbD_eq
  intro i hi
  simp only [pairAt, byteAt, BitVec.getLsbD_append, BitVec.getLsbD_extractLsb', hi]
  split
  · next h => simp [h]
  · next h =>
    have h1 : i - 8 < 8 := by omega
    have h2 : 8 * (k + 1) + (i - 8) = 8 * k + i := by omega
    simp [h1, h2]

theorem tripleAt_eq (b : Block) (k : Nat) :
    tripleAt b k = (byteAt b (k + 2)) ++ (byteAt b (k + 1)) ++ (byteAt b k) := by
  apply BitVec.eq_of_getLsbD_eq
  intro i hi
  simp only [tripleAt, byteAt, BitVec.getLsbD_append, BitVec.getLsbD_extractLsb', hi]
  split
  · next h => simp [h]
  · split
    · next h h' =>
      have h2 : 8 * (k + 1) + (i - 8) = 8 * k + i := by omega
      simp [h', h2]
    · next h h' =>
      have h1 : i - 8 - 8 < 8 := by omega
      have h2 : 8 * (k + 2) + (i - 8 - 8) = 8 * k + i := by omega
      simp [h1, h2]

theorem pair_append (v : BitVec 16) : (v.extractLsb' 8 8) ++ (v.extractLsb' 0 8) = v := by
  apply BitVec.eq_of_getLsbD_eq
  intro i hi
  simp only [BitVec.getLsbD_append, BitVec.getLsbD_extractLsb']
  split
  · next h => simp [h]
  · next h => simp [show i - 8 < 8 by omega, show 8 + (i - 8) = i by omega]

theorem triple_append (v : BitVec 24) : (v.extractLsb' 16 8) ++ (v.extractLsb' 8 8) ++ (v.extractLsb' 0 8) = v := by
  apply BitVec.eq_of_getLsbD_eq
  intro i hi
  simp only [BitVec.getLsbD_append, BitVec.getLsbD_extractLsb']
  split
  · next h => simp [h]
  · split
    · next h h' => simp [h', show 8 + (i - 8) = i by omega]
    · next h h' => simp [show i - 8 - 8 < 8 by omega, show 16 + (i - 8 - 8) = i by omega]

end Sys2Proof.Machine
end

