-- ==== Sys2Proof/Tests/Slice0.lean ====
section
/-! SUPPORT. The model's own tests: refused ill-formed commands, the worked examples of spec/, and for each statement with
hypotheses a state and operands that meet them. -/

namespace Sys2Proof.Tests

set_option Elab.async false

open Sys2Proof Sys2Proof.Machine

/-! ## Helpers -/

/-- A sender. -/
def src (i : Fin 7) : Src := ⟨i, 5⟩

/-- A state after a command. -/
def after (c : Instr) (s : State) : State :=
  match exec c s with
  | .next t => t
  | .fault _ => s
  | .refused _ => s

/-- A command answers a next state. -/
def runs (c : Instr) (s : State) : Bool :=
  match exec c s with
  | .next _ => true
  | .fault _ => false
  | .refused _ => false

/-- A jukebox after its inventory: every platter in its slot side A up, every surface KNOWN with both marks at 100. -/
def calmJb : Jukebox :=
  { Jukebox.cold with
    picker := { Picker.cold with state := .parked, position := some (.slot 95), inventory := none, stepLimit := none }
    platters := Vector.replicate 96 ⟨true, some .slot, .a, false, none⟩
    surfaces := Vector.replicate 192 ⟨100, 100, .known, none⟩ }

/-- The part with such a jukebox, at a cold start's settings. -/
def calm : State := { State.reset with batteryLow := false, jb := calmJb }

/-- The calm part with its jukebox changed. -/
def calmWith (f : Jukebox → Jukebox) : State := { calm with jb := f calmJb }

/-- The calm part with one drive changed. -/
def driveIs (d : Fin 4) (x : Drive) : State := calmWith fun j => j.onDrive d fun _ => x

/-- The map of section 1.8 of the volume chapter. -/
def officeMap : VolumeMap where
  windows := ((VolumeMap.cold.windows.set 2 ⟨true, 3, false, true⟩).set 3 ⟨true, 0, true, true⟩)
  fixed := Vector.ofFn fun k : Fin 32 => ⟨if k.val < 28 then .sealed else .direct, .primary, .primary⟩
  vars := (Vector.replicate 16 ⟨false, 0, 0, .void, .primary, .primary⟩).set 0 ⟨true, 2, 59, .sealed, .primary, .primary⟩
    |>.set 1 ⟨true, 60, 63, .gather, .primary, .dual⟩ |>.set 2 ⟨true, 64, 79, .retain, .primary, .primary⟩
    |>.set 3 ⟨true, 78, 79, .void, .primary, .primary⟩ |>.set 4 ⟨true, 120, 123, .sealed, .primary, .primary⟩
    |>.set 5 ⟨true, 40, 41, .sealed, .mirror, .primary⟩
  control := ⟨true, true, .sealed, true⟩
  pairs := (Vector.replicate 16 ⟨false, 0, 0⟩).set 0 ⟨true, 60, 120⟩ |>.set 1 ⟨true, 61, 121⟩ |>.set 2 ⟨true, 40, 122⟩

/-- The calm part with that map. -/
def office : State := { calm with map := officeMap }

/-- A FILLING line of surface 61 with 16 blocks. -/
def line61 (k : Nat) : GatherLine := ⟨61, k, 16 * k, 16 * k + 16, List.replicate 16 7, .filling, none, 0, 20000, 0⟩

/-- The tariff entry and page size of section 7.3. -/
def officeTariff : Tariff := ⟨32, Vector.replicate 7 ⟨500, 2, 3, 150, 15, 2500⟩⟩

/-! ## Ill-formed commands are refused -/

theorem test_wf_write : (Instr.write (src 0) 0 2 [0]).wellFormed = false := by decide
theorem test_wf_other_block : (Instr.controlWriteOtherBlock (src 0) 0 1).wellFormed = false := by decide
theorem test_wf_unknown : (Instr.unknownCommand (src 0) 0x41).wellFormed = false := by decide
theorem test_wf_sensor : (Instr.clearPicker (src 0) (.platter 96)).wellFormed = false := by decide
theorem test_wf_grip : (Instr.powerOn true false (some 96) none none none none).wellFormed = false := by decide
theorem test_wf_surface : (Instr.powerOn true false none (some 192) none none none).wellFormed = false := by decide
theorem test_wf_twice : (Instr.powerOn true false (some 30) none (some 61) none none).wellFormed = false := by decide
theorem test_wf_line_low : (Instr.lineAgeLimitExpiry 1 0).wellFormed = false := by decide
theorem test_wf_line_high : (Instr.lineAgeLimitExpiry 192 0).wellFormed = false := by decide
theorem test_wf_line_index : (Instr.lineAgeLimitExpiry 2 16384).wellFormed = false := by decide
theorem test_wf_media : (Instr.burstEnd 0 [(262144, .blank)]).wellFormed = false := by decide
theorem test_wf_label : (Instr.inventorySlotCheck (some ⟨96, .a⟩)).wellFormed = false := by decide
theorem test_wf_good : (Instr.powerOn true true (some 95) (some 61) none none (some 0)).wellFormed = true := by decide

/-! ## No table word spells a command -/

theorem test_no_word : decodeTableWord 8 0 = none := by decide

/-! ## The volume (sections 1.1 and 1.8) -/

theorem test_address_3 : (windowOf 202375192, archiveBlock 202375192, divide 1048600 1) = (3, 1048600, [(4, 24, 1)]) := by
  decide +kernel
theorem test_address_0 : (windowOf 300000, divide 300000 1, platterOf 1, sideOf 1, 37856 / 16384) =
    (0, [(1, 37856, 1)], 0, .b, 2) := by decide +kernel
theorem test_address_1 : (windowOf 117440511, divide 50331647 1, platterOf 191) = (1, [(191, 262143, 1)], 95) := by
  decide +kernel
theorem test_address_end : (windowOf 117440512, archiveBlock 117440512) = (1, 50331648) := by decide +kernel
theorem test_address_control : (windowOf 469762048, archiveBlock 469762048) = (7, 0) := by decide +kernel
theorem test_units : mapUnits.length = 222 := by decide +kernel
theorem test_resolve_sealed : [(0, 0), (40, 0), (41, 0), (121, 0), (150, 0)].map (fun u => officeMap.resolve u.1 u.2) =
    [⟨.sealed, .primary, .primary, none⟩, ⟨.sealed, .primary, .primary, some 122⟩, ⟨.sealed, .primary, .primary, none⟩,
      ⟨.sealed, .primary, .primary, none⟩, ⟨.sealed, .primary, .primary, none⟩] := by decide +kernel
theorem test_resolve_other :
    [(1, 196608), (61, 0), (63, 0), (70, 0), (79, 0)].map (fun u => officeMap.resolve u.1 u.2) =
    [⟨.direct, .primary, .primary, none⟩, ⟨.gather, .primary, .dual, some 121⟩, ⟨.gather, .primary, .primary, none⟩,
      ⟨.retain, .primary, .primary, none⟩, ⟨.void, .primary, .primary, none⟩] := by decide +kernel

/-- The response record of initiator 0 after a command. -/
def answer (c : Instr) (s : State) : Response := (after c s).control.responses[0]

/-- The office with two FILLING lines of surface 61. -/
def busyOffice : State := { office with jb := { calmJb with lines := [line61 6, line61 7] } }

theorem test_trial_busy : answer (.setVariableRange (src 0) 1 0 0 0 0 0 0) busyOffice = ⟨0x03, .refused, .busySurface, 1⟩ := by
  decide +kernel
theorem test_trial_done : answer (.setVariableRange (src 0) 1 1 60 63 3 0 0) busyOffice = ⟨0x03, .done, .none, 1⟩ := by
  decide +kernel
theorem test_trial_paired : answer (.setVariableRange (src 0) 4 1 120 123 1 0 0) office = ⟨0x03, .refused, .paired, 1⟩ := by
  decide +kernel
theorem test_pair_same_platter : answer (.setMirrorPair (src 0) 5 1 62 63) office = ⟨0x05, .refused, .badValue, 1⟩ := by
  decide +kernel
theorem test_pair_done : (after (.setMirrorPair (src 0) 5 1 62 123) office).map.pairs[5] = ⟨true, 62, 123⟩ := by
  decide +kernel
theorem test_fixed_range : (after (.setFixedRange (src 0) 31 1 0 1) office).map.fixed[31] = ⟨.direct, .primary, .dual⟩ := by
  decide +kernel
theorem test_map_control : (after (.setMapControl (src 0) 1 0 4 1) calm).map.control = ⟨true, false, .sealed, true⟩ := by
  decide +kernel

/-! ## Requests (sections 2.9 and 2.10, R24) -/

theorem test_two_surfaces : divide 16252888 500 = [(61, 262104, 40), (62, 0, 460)] := by decide +kernel
theorem test_index_platter : divide 278524 10 = [(1, 16380, 4), (1, 16384, 6)] := by decide +kernel
theorem test_out_of_range : (after (.read (src 0) 117440500 20) office).jb.bus = [.status 0 5 .outOfRange] := by
  decide +kernel
theorem test_window_closed : (after (.read (src 0) 67108864 20) office).jb.bus = [.status 0 5 .windowClosed] := by
  decide +kernel
theorem test_write_too_long : (after (.write (src 0) 0 257 []) office).jb.bus = [.status 0 5 .badLength] := by
  decide +kernel
theorem test_write_sealed : (after (.write (src 0) 0 1 [7]) office).jb.bus = [.status 0 5 .protect] := by decide +kernel

/-- Surfaces 61 and 62 as in section 2.9. -/
def twoSurfaces : State :=
  { office with jb := { calmJb with
      surfaces := (calmJb.surfaces.set 61 ⟨262096, 262144, .known, none⟩).set 62 ⟨50000, 50000, .known, none⟩
      lines := [line61 16381, line61 16382, line61 16383] } }

theorem test_read_two_surfaces :
    ((after (.read (src 2) 150470616 500) twoSurfaces).jb.table.map fun q =>
      (q.level, q.feeClass, q.delivered, q.staged, q.segments.map fun g => g.state)) =
    [(.counter, 3, 40, 40, [.done, .inService])] := by decide +kernel

/-! ## The arbiter (R47, R49) -/

theorem test_ranking : ranking Settings.cold .backOffice 32 = [.express, .counter, .flush, .staff, .write] := by decide
theorem test_ranking_back : ranking { Settings.cold with tierCode := 1, backCode := 2 } .backOffice 32 =
    [.write, .staff, .flush, .express, .counter] := by decide
theorem test_promoted : ranking Settings.cold .backOffice 4 = [.express, .flush, .counter, .staff, .write] := by decide
theorem test_promoted_back : ranking { Settings.cold with tierCode := 1, backCode := 2 } .backOffice 4 =
    [.express, .flush, .write, .staff, .counter] := by decide

/-! ## Fees (section 7.3) and the day close (section 7.9) -/

theorem test_fee_288 : (officeTariff.pages 288, (officeTariff.entry 3).fee 9) = (9, 1093) := by decide
theorem test_fee_460 : (officeTariff.pages 460, (officeTariff.entry 3).fee 15) = (15, 1438) := by decide
theorem test_fee_66 : (officeTariff.pages 66, (officeTariff.entry 3).fee 3) = (3, 748) := by decide
theorem test_fee_cap : (⟨500, 2, 3, 200, 15, 2500⟩ : ClassEntry).fee 32 = 2500 := by decide
theorem test_fee_greatest : (⟨65535, 0, 1, 65535, 200, 0⟩ : ClassEntry).fee 1024 = 201520125 := by decide +kernel

/-- Day 211 closed at 120.0 with apply: an update is DEFERRED on two generation-14 requests. -/
def day211 : State :=
  { calm with fee := { FeeUnit.cold with
      active := officeTariff, generation := 15, activeCount := 4, previousCount := 2, day := 211
      close := { CloseRecord.cold with state := .acknowledged, day := 210 } } }

theorem test_close_day : let t := (after (.closeDay (src 0) 1) day211).fee
    (t.close.day, t.close.generation, t.close.state, t.day, t.update) = (211, 15, .unread, 212, .deferred) := by
  decide +kernel
theorem test_page_deferred : answer (.setPageSize (src 0) 16)
    { day211 with fee := { day211.fee with update := .deferred } } = ⟨0x11, .refused, .updatePending, 1⟩ := by
  decide +kernel
theorem test_apply : let t := (after (.applyTariff (src 0)) { day211 with fee := { day211.fee with
      generation := 14, previousCount := 0, activeCount := 5 } }).fee
    (t.generation, t.update, t.activeCount, t.previousCount) = (15, .current, 0, 5) := by decide +kernel
theorem test_ack_wrong_day : answer (.ackClose (src 0) 212) { day211 with fee := { day211.fee with
    close := { CloseRecord.cold with state := .unread, day := 211 } } } = ⟨0x14, .refused, .badValue, 1⟩ := by
  decide +kernel
theorem test_ack : answer (.ackClose (src 0) 211) { day211 with fee := { day211.fee with
    close := { CloseRecord.cold with state := .unread, day := 211 } } } = ⟨0x14, .done, .none, 1⟩ := by decide +kernel
theorem test_tariff : (after (.setTariff (src 0) 3 600 2 3 150 15 2500) day211).fee.pending.classes[2] =
    ⟨600, 2, 3, 150, 15, 2500⟩ := by decide +kernel

/-! ## A morning's commands (section 9.8) -/

theorem test_not_permitted : (after (.setWindow (src 3) 2 1 3 0 0) State.reset).control.responses[3] =
    ⟨0x01, .refused, .notPermitted, 1⟩ := by decide +kernel
theorem test_two_blocks : (after (.write (src 0) 469762048 2 [0, 0]) State.reset).jb.bus = [.status 0 5 .badLength] := by
  decide +kernel
theorem test_control_set : (after (.setControlSet (src 0) 0x41) State.reset).control.members = 0b1000001 := by
  decide +kernel
theorem test_timing : answer (.setTiming (src 0) 12000 4 20 30 120) State.reset = ⟨0x21, .clamped, .none, 1⟩ := by
  decide +kernel
theorem test_service_tier_5 : answer (.setService (src 0) 0x1F 1 5 4 1 1) State.reset = ⟨0x20, .refused, .badValue, 1⟩ := by
  decide +kernel
theorem test_service_tier_3 : (after (.setService (src 0) 0x1F 1 3 4 1 1) State.reset).settings.tierCode = 0 := by
  decide +kernel
theorem test_window : (after (.setWindow (src 0) 2 1 3 0 0) State.reset).map.windows[2] = ⟨true, 3, false, false⟩ := by
  decide +kernel
theorem test_locked : answer (.setWindow (src 0) 4 1 0 0 0) { State.reset with control := { ControlUnit.cold with lock := 1 } } =
    ⟨0x01, .refused, .locked, 1⟩ := by decide +kernel
theorem test_lock_again : answer (.raiseLock (src 0) 1) { State.reset with control := { ControlUnit.cold with lock := 1 } } =
    ⟨0x41, .refused, .badValue, 1⟩ := by decide +kernel
theorem test_zeros : (after (.write (src 3) 469762048 1 [0]) State.reset).control.responses[3] =
    ⟨0x00, .refused, .unknownCommand, 1⟩ := by decide +kernel
theorem test_write_block_5 : (after (.controlWriteOtherBlock (src 0) 5 1) State.reset).jb.bus = [.status 0 5 .protect] := by
  decide +kernel
theorem test_unknown_command : answer (.unknownCommand (src 0) 0x06) State.reset = ⟨0x06, .refused, .unknownCommand, 1⟩ := by
  decide +kernel

/-! ## Command records written out from R178's table -/

theorem test_record_window : decodeRecord (blockOf [0x01, 2, 1, 3, 0, 1]) = .setWindow 2 1 3 0 1 := by decide +kernel
theorem test_record_tariff :
    decodeRecord (blockOf [0x10, 3, 0xF4, 0x01, 2, 3, 0x96, 0x00, 15, 0xC4, 0x09, 0x00]) =
    .setTariff 3 500 2 3 150 15 2500 := by decide +kernel
theorem test_record_timing :
    decodeRecord (blockOf [0x21, 0xE0, 0x2E, 4, 20, 0, 30, 0, 120, 0]) = .setTiming 12000 4 20 30 120 := by decide +kernel
theorem test_record_ack : decodeRecord (blockOf [0x14, 0xD3, 0x00]) = .ackClose 211 := by decide +kernel
theorem test_record_seal : decodeRecord (blockOf [0x31, 60, 0x00, 0x00, 0x04]) = .restoreSeal 60 262144 := by decide +kernel

/-! ## Drives and the picker -/

/-- An order for drive 1: platter 2 goes home, platter 3 comes in with side B wanted. -/
def order1 (step : Nat) : Order := ⟨1, .exchange, some 2, some 3, some .b, false, step, .running, false, false⟩

/-- The picker is BUSY with that order, each platter being where its step has it; up to step 2 drive 1 is UNLOADING. -/
def busyWith (o : Order) : State := calmWith fun j =>
  let grip : Option Nat := if o.step = 3 then some 2 else if 5 ≤ o.step then some 3 else none
  let j := if o.step ≤ 2 then (j.onDrive 1 fun x => { x with state := .unloading, platter := some 2, limit := some 10000 }).onPlatter 2
      fun r => { r with location := some (.drive 1) }
    else j
  let j := match grip with
    | some p => j.onPlatter p fun r => { r with location := some .picker }
    | none => j
  { j with orders := [o], picker := { j.picker with state := .busy, stepLimit := some 15000, gripped := grip } }

theorem test_arrives_waits : (after .pickerArrivesAtDrive (busyWith (order1 1))).jb.picker.stepLimit = none := by
  decide +kernel
theorem test_grip_incoming : (after .incomingPlatterGrip (busyWith (order1 4))).jb.orders.map (·.step) = [5] := by
  decide +kernel
theorem test_flip : (after .pickerFlipEnd (busyWith (order1 5))).jb.platter 3 = ⟨true, some .picker, .b, false, none⟩ := by
  decide +kernel
theorem test_seated : ((after .platterSeated (busyWith (order1 6))).jb.drive 1).state = .loading := by decide +kernel
theorem test_release : (after .platterReleaseInSlot (busyWith (order1 3))).jb.orders.map (·.step) = [4] := by decide +kernel
theorem test_grip_fails : (after .pickerGripFailure (busyWith (order1 4))).jb.platter 3 = ⟨false, none, .a, false, none⟩ := by
  decide +kernel
theorem test_step_limit : (after .pickerStepLimit (busyWith (order1 4))).jb.picker.state = .fault := by decide +kernel
theorem test_door : (after .doorOpening (busyWith (order1 4))).jb.picker.halt = some ⟨.busy, false⟩ := by decide +kernel
theorem test_spin_down : ((after (.spinDownComplete 1 true) (busyWith (order1 1))).jb.drive 1).ejected = true := by
  decide +kernel
theorem test_spin_down_limit : ((after (.spinDownLimit 1) (busyWith (order1 1))).jb.drive 1).reason = some .spinDownLimit := by
  decide +kernel

/-- Drive 2 is LOADING platter 4. -/
def loading : State := driveIs 2 { Drive.bare with state := .loading, platter := some 4, limit := some 10000 }

theorem test_spin_up : ((after (.spinUpComplete 2) loading).jb.drive 2).mounted = some 8 := by decide +kernel
theorem test_spin_up_limit : ((after (.spinUpLimit 2) loading).jb.drive 2).ejecting = true := by decide +kernel
theorem test_hardware : ((after (.driveHardwareReport 2) loading).jb.drive 2).reason = some .hardware := by decide +kernel

/-- Drive 2 is in FAULT with platter 4 inside, and its eject attempt runs. -/
def ejecting : State := driveIs 2 { Drive.bare with
  state := .fault, platter := some 4, reason := some .hardware, ejecting := true, limit := some 10000 }

theorem test_eject_taken : (after (.ejectAttemptReport 2 true) ejecting).jb.orders.map (·.kind) = [.returnHome] := by
  decide +kernel
theorem test_eject_limit : ((after (.ejectAttemptLimit 2) ejecting).jb.platter 4).held = true := by decide +kernel

/-- Drive 0 is in FAULT with nothing inside. -/
def emptyFault : State := driveIs 0 { Drive.bare with state := .fault, reason := some .hardware }

theorem test_clear_drive : ((after (.clearDrive (src 0) 0) emptyFault).jb.drive 0).state = .empty := by decide +kernel
theorem test_take_offline : ((after (.takeOffline (src 0) 3) calm).jb.drive 3).state = .offline := by decide +kernel
theorem test_return_drive : answer (.returnDrive (src 0) 3) calm = ⟨0x26, .refused, .state, 1⟩ := by decide +kernel
theorem test_clear_picker : answer (.clearPicker (src 0) .asRecorded) calm = ⟨0x25, .refused, .state, 1⟩ := by decide +kernel
theorem test_resume : answer (.resumePicker (src 0)) (calmWith fun j => { j with picker := { j.picker with door := .opened } }) =
    ⟨0x23, .refused, .doorOpen, 1⟩ := by decide +kernel
theorem test_restore_seal : (after (.restoreSeal (src 0) 60 300000) State.reset).jb.surface 60 =
    ⟨262144, 262144, .known, none⟩ := by decide +kernel

/-! ## Start-up (R187, section 10.6) -/

/-- Power is lost while line 2,520 of surface 60 is FLUSHING. -/
def lost : State :=
  { calm with jb := { calmJb with lines := [{ line61 2520 with surface := 60, state := .flushing, due := some 99 }] } }

/-- The start of section 10.6: drive 1 reports surface 60. -/
def warm : Jukebox := (after (.powerOn true false none none (some 60) none none) lost).jb

theorem test_warm : (warm.lines.map (·.state), warm.flushes.map (·.due), warm.picker.inventory) =
    ([.filling], [99], some (.driveCheck 1)) := by decide +kernel
theorem test_cold : (after (.powerOn false true none none none none none) calm).jb.picker.state = .halted := by decide +kernel
theorem test_slot_check : ((after (.inventorySlotCheck (some ⟨45, .a⟩)) (calmWith fun j =>
    { j with picker := { j.picker with state := .inventory, inventory := some (.slot 44) } })).jb.platter 45).misfile = some 44 := by
  decide +kernel
/-- The place of inventory in block 1 after each check of section 10.6: drive D1, none yet, slot 44, slot 46. -/
theorem test_inventory_place :
    let shows (c : Instr) (s : State) := (statusBlock (after c s)).getLast?
    let at' (t : InvTask) : State := calmWith fun j => (j.onDrive 1 fun x => { x with state := .ready, platter := some 30 }).onPicker
      fun p => { p with state := .inventory, inventory := some t, gripped := if t = .driveCarry 1 30 then some 30 else none }
    [shows (.inventorySlotCheck none) (at' (.driveCheck 1)), shows .platterReleaseInSlot (at' (.driveCarry 1 30)),
      shows (.inventorySlotCheck (some ⟨45, .a⟩)) (at' (.slot 44)), shows (.inventorySlotCheck (some ⟨46, .a⟩)) (at' (.slot 46))] =
    [some 97, some 0xFF, some 44, some 46] := by decide +kernel

theorem test_power_loss : (after .powerLoss calm).powered = false := by decide +kernel
theorem test_battery_fall : (after .batteryGoodFall busyOffice).jb.lines.map (·.due) = [some 0, some 0] := by decide +kernel
theorem test_flush_all : (after (.flushAll (src 0)) busyOffice).jb.flushes.map (·.line) = [6] := by decide +kernel
theorem test_age : (after (.lineAgeLimitExpiry 61 7) busyOffice).jb.lines.map (·.due) = [none, some 0] := by decide +kernel

/-! ## Witnesses: a state and operands that meet the hypotheses of each statement -/

/-- A request of initiator 0 with tag 5 on surface 40. -/
def request (k : Kind) (st : ReqState) (gs : List Segment) : Request :=
  { initiator := 0, tag := 5, kind := k, window := 2, feeClass := 3, level := match k with
      | .read => .counter
      | .write => .write
    start := 40 * 262144, length := 70, generation := 0, state := st, deadline := some 120000, segments := gs
    delivered := 0, billable := 0, staged := 0, status := .good, accepted := 0, stagingExpiry := none, data := [] }

/-- Its one segment, 70 blocks from block 20 of surface 40 on. -/
def segment (ty : HType) (st : SegState) : Segment :=
  { surface := 40, first := 20, count := 70, htype := ty, readRoute := .primary, writeRoute := .primary, mirror := none
    kind := .drive, state := st, current := 70, attempts := 0, status := .good, readSide := .primary, served := 0
    billable := 0, staged := 0, failedVerify := 0, primaryDone := false, kept := [] }

/-- Drive 1 works on that segment: platter 20 is in it with surface 40 mounted. -/
def working (k : Kind) (ty : HType) (f : Drive → Drive) : State :=
  { office with
    fee := { FeeUnit.cold with activeCount := 1 }
    jb := { (calmJb.onDrive 1 fun x => f { x with
        state := .transfer, platter := some 20, mounted := some 40, left := 70
        work := some ⟨.request ⟨0, 5, 0⟩, (request k .active []).level,
          if k = .read then List.replicate 64 .platter else [], none, none⟩ }) with
      table := [request k .active [segment ty .inService]] } }

/-- The lines of a state change while a flush of surface 61 runs on drive 1. -/
def flushing (attempts : Nat) (f : Drive → Drive) (g : Flush → Flush) : State :=
  { office with
    jb := { (calmJb.onDrive 1 fun x => f { x with
        state := .transfer, platter := some 30, mounted := some 61, left := 12, pass := some ⟨.primary, 0⟩
        work := some ⟨.flush 61 6, .flush, [], none, none⟩ }) with
      lines := [{ line61 6 with state := .flushing, due := some 9, attempts := attempts }]
      flushes := [g ⟨61, 6, .primary, none, 9, .inService, some (100, 112), false⟩] } }

theorem witness_IdleStepLetsOneMsPass :
    calm.pending = [] ∧ calm.powered = true ∧ ({ calm with powered := false } : State).pending = [] := by decide +kernel

theorem witness_StepKeepsStoredValuesInRange : calm.InRange ∧ ∃ t, step calm = .next t :=
  ⟨{ map := ⟨by decide +kernel, by decide +kernel, by unfold VarRange.InRange; decide +kernel,
      by unfold MirrorPair.InRange; decide +kernel⟩
     settings := ⟨by decide, by decide, by decide, by decide, by decide, by decide, by decide⟩
     fee :=
       have t : calm.fee.active.InRange := ⟨by decide, fun c h => by
         have : c = ⟨0, 0, 1, 0, 0, 0⟩ := by simpa [calm, State.reset, FeeUnit.cold, Tariff.cold] using h
         subst this; exact ⟨by decide, by decide, by decide, by decide, by decide, by decide⟩⟩
       have y : ∀ i : Fin 7, ∀ t ∈ zeroTallies[i].toList, t.InRange := by unfold Tally.InRange; decide +kernel
       have z : ∀ i : Fin 7, zeroSides[i].InRange := by unfold SideCounts.InRange; decide +kernel
       ⟨t, t, t, y, z, ⟨y, z⟩⟩
     members := by decide, lock := by decide }, _, rfl⟩

theorem witness_StepKeepsStoredValuesInRange_inFlight :
    (working .read .sealed id).jb.TableWf ∧ (working .read .sealed id).fee.close.inFlight ≤ 32 ∧
      ∃ t, step (working .read .sealed id) = .next t :=
  ⟨⟨by decide +kernel, by decide +kernel, by decide +kernel⟩, by decide, _, rfl⟩

theorem witness_StepKeepsTableAndFeeCounts :
    (working .read .sealed id).jb.TableWf ∧ (working .read .sealed id).FeeCountsAgree ∧
      ∃ t, step (working .read .sealed id) = .next t :=
  ⟨⟨by decide +kernel, by decide +kernel, by decide +kernel⟩, ⟨by decide +kernel, by decide +kernel, by decide +kernel⟩, _, rfl⟩

/-- The picker carries platter 2 home, with commands waiting. -/
def carrying : State := { busyWith (order1 3) with pending := [.platterReleaseInSlot] }

theorem witness_StepKeepsTableAndFeeCounts_orders : carrying.jb.OrdersWf ∧ ∃ t, step carrying = .next t :=
  ⟨⟨by decide +kernel, by decide +kernel⟩, _, rfl⟩

theorem witness_StepKeepsTableAndFeeCounts_places : carrying.jb.PlacesWf ∧
    (∀ c ∈ carrying.pending.head?, carrying.jb.reportsFit c) ∧ ∃ t, step carrying = .next t := by
  have bare : ∀ d : Fin 4, (carrying.jb.drive d).platter = none := by decide +kernel
  have grip : carrying.jb.picker.gripped = some 2 := rfl
  have far (p : Nat) (h : 96 ≤ p) : (carrying.jb.platter p).location = none := by rw [platter_far _ p h]; rfl
  refine ⟨⟨by decide +kernel, by decide +kernel, fun d p h => ?_, fun d => near_and_far (m := 96) ?_ fun p h e => ?_, fun p h => ?_,
    near_and_far (m := 96) ?_ fun p h e => ?_, near_and_far (m := 96) (by decide +kernel) fun p h => ?_, fun t h => ?_, fun d p _ h => ?_⟩, ?_, _, rfl⟩
  · rw [bare d] at h; cases h
  · revert d; decide +kernel
  · rw [far p h] at e; cases e
  · rw [grip] at h; cases h; left; decide +kernel
  · decide +kernel
  · rw [far p h] at e; cases e
  · rw [platter_far _ p h]; rfl
  · cases h
  · rw [bare d] at h; cases h
  · intro c h; cases h; trivial

theorem witness_StepKeepsBufferMemory : busyOffice.jb.BufferWf ∧ ∃ t, step busyOffice = .next t :=
  ⟨⟨by unfold before; decide +kernel, by decide +kernel, by decide +kernel, by decide +kernel⟩, _, rfl⟩

theorem witness_EventsLeaveConfigurationAlone :
    Instr.doorOpening.asCmd = none ∧ (Instr.powerOn true false none none none none none).asCmd = none ∧
      Instr.powerLoss.asCmd = none ∧ (Instr.write (src 0) 0 1 [0]).asCmd = none ∧ (Instr.read (src 0) 0 1).asCmd = none ∧
      (Instr.statusSend 0 5).asCmd = none ∧ Instr.batteryGoodFall.asCmd = none ∧ runs .doorOpening calm = true ∧
      runs (.powerOn true false none none none none none) calm = true ∧ runs .powerLoss calm = true ∧
      runs (.write (src 0) 0 1 [0]) calm = true := by decide +kernel

theorem witness_SealMarksMoveOnlyAtAPassedVerify :
    runs (.verifyEnd 1 true) (flushing 0 (fun x => { x with state := .verify }) id) = true ∧
      runs (.restoreSeal (src 0) 60 5) State.reset = true ∧ runs (.verifyEnd 1 false) calm = true ∧
      runs (.write (src 0) 469762048 1 [0]) calm = true := by decide +kernel

theorem witness_ControlCommandIsAnswered :
    (Instr.flushAll (src 0)).asCmd = some (src 0, .flushAll) ∧ calm.powered = true := by decide +kernel

theorem witness_RefusedCommandChangesNothing :
    (Instr.raiseLock (src 6) 1).asCmd = some (src 6, .raiseLock 1) ∧ runs (.raiseLock (src 6) 1) calm = true ∧
      (after (.raiseLock (src 6) 1) calm).control.responses[6].outcome = .refused := by decide +kernel

/-- The calm part at a lock level. -/
def locked (l : Nat) : State := { calm with control := { ControlUnit.cold with lock := l } }

theorem witness_ControlChecksInOrder :
    cmdUnknown (.unknown 0) = true ∧ (cmdUnknown .flushAll = false ∧ calm.control.members.getLsbD 1 = false) ∧
      (calm.control.members.getLsbD 0 = true ∧ Cmd.frozenAt 1 (.setWindow 0 1 0 0 1) ∧ Cmd.frozenAt 2 (.closeDay 1) ∧
        Cmd.frozenAt 3 (.setControlSet 1)) ∧
      (¬ Cmd.frozenAt 3 (.closeDay 2) ∧ ¬ Cmd.fieldsFit (.closeDay 2)) := by
  refine ⟨by decide, ⟨by decide, by decide⟩, ⟨by decide, ?_, ?_, ?_⟩, ?_, by unfold Cmd.fieldsFit; decide⟩ <;>
    unfold Cmd.frozenAt <;> decide

theorem witness_ControlChecksInOrder_unlocked :
    ¬ Cmd.frozenAt 0 (.setControlSet 128) ∧ ¬ Cmd.fieldsFit (.setControlSet 128) ∧
      (locked 0).control.members.getLsbD 0 = true := by
  unfold Cmd.frozenAt Cmd.fieldsFit; decide

/-- Commands with one field out of its codes. -/
def badRecords : List Cmd :=
  [.setWindow 2 1 3 0 2, .setFixedRange 0 5 0 0, .setVariableRange 0 1 2 2 1 2 0, .setVariableRange 0 2 2 2 1 0 0,
    .setMapControl 1 1 5 1, .setMirrorPair 0 2 60 120, .setService 0x20 1 0 0 1 1, .setService 0x1F 1 4 0 1 1,
    .setService 0x1F 1 0 8 1 1, .takeOffline 0 2, .releaseQuarantine 61 2, .setControlSet 0]

theorem witness_ControlChecksInOrder_fields :
    (∀ k ∈ badRecords, ¬ Cmd.frozenAt 0 k ∧ ¬ Cmd.fieldsFit k ∧ decodeRecord (encodeRecord k) = k) ∧
      Cmd.fieldsFit (.setService 0x1F 1 3 7 0 1) ∧ Cmd.fieldsFit (.setVariableRange 0 0 9 9 9 9 9) := by
  refine ⟨fun k h => ?_, ?_, ?_⟩
  · unfold badRecords at h
    fin_cases h <;> (unfold Cmd.frozenAt Cmd.fieldsFit; decide +kernel)
  · unfold Cmd.fieldsFit; decide
  · unfold Cmd.fieldsFit; decide

theorem test_bad_action :
    answer (.write (src 0) 469762048 1 [blockOf [0x30, 61, 2]]) calm = ⟨0x30, .refused, .badValue, 1⟩ := by decide +kernel

theorem witness_MayCommand : calm.MayCommand (src 0) ∧ office.MayCommand (src 0) := ⟨⟨rfl, by decide⟩, rfl, by decide⟩

theorem witness_SetServiceWritesSixSettings : calm.MayCommand (src 0) ∧ (0x1F : Byte).toNat < 32 ∧ (3 : Byte).toNat ≤ 3 ∧
    (7 : Byte).toNat ≤ 7 ∧ calm.settings.dispatch = true ∧ calm.settings.enables .flush = true ∧ calm.jb.table = [] ∧
    calm.jb.flushes = [] := ⟨⟨rfl, by decide⟩, by decide, by decide, by decide, rfl, by decide, rfl, rfl⟩

theorem witness_SetServiceOpensWork :
    let s : State := { calm with settings := { Settings.cold with dispatch := false, levelMask := 0 } }
    s.MayCommand (src 0) ∧ s.settings.dispatch = false ∧ s.settings.enables .flush = false ∧
      ({ Settings.cold with levelMask := 0x10 } : Settings).enables .flush = true :=
  ⟨⟨rfl, by decide⟩, rfl, by decide, by decide⟩

theorem witness_ControlAccessChecksInOrder : calm.powered = true ∧ 0 < 67108864 ∧ 67108863 < 67108864 ∧ (0 : Nat) ≠ 1 ∧
    (2 : Nat) ≠ 1 ∧ ¬ ((207 : Nat) = 14 ∨ (207 : Nat) = 15 ∨ 208 ≤ 207) := by decide

theorem witness_ControlReadIsServed : calm.powered = true ∧ (0 ≤ 13 ∧ 13 ≤ 13) ∧ (16 ≤ 16 ∧ 16 ≤ 207) ∧
    (16 ≤ 207 ∧ 207 ≤ 207) := by decide

theorem witness_ControlReadIsServed_fields : (working .read .sealed id).jb.Showable ∧
    (readback 0 10 (working .read .sealed id)).take 8 = [0, 5, 0, 2, 3, 1, 0, 1] := by
  unfold Jukebox.Showable; decide +kernel

theorem witness_CommandRecordRoundTrip : cmdUnknown (.setPageSize 64) = false ∧ (0x42 : Byte) ∉ knownCodes ∧
    (∀ x, Cmd.clearPicker .asRecorded = .clearPicker x → x = .asRecorded) :=
  ⟨rfl, by decide, fun x h => by injection h with h; exact h.symm⟩

theorem witness_WindowSevenIsTheControlWindow :
    (Instr.flushAll (src 0)).asCmd = some (src 0, .flushAll) ∧ decodeRecord (blockOf [0x22]) = .flushAll := by
  decide +kernel

theorem witness_AcceptanceChecksInOrder : calm.powered = true ∧ 402653184 / 67108864 ≠ 7 ∧
    firstHolding (acceptanceChecks calm (src 0) .read 536870912 1) = some .outOfRange ∧ 536870912 / 67108864 ≠ 7 ∧
    firstHolding (acceptanceChecks calm (src 0) .read 402653184 1) = some .windowClosed ∧
    firstHolding (acceptanceChecks calm (src 0) .read 0 1025) = some .badLength ∧
    firstHolding (acceptanceChecks calm (src 0) .write 0 256) = some .protect := by decide +kernel

theorem witness_AcceptedRequestJoinsTheTable : calm.powered = true ∧ 50331647 / 67108864 ≠ 7 ∧
    firstHolding (acceptanceChecks calm (src 0) .read 50331647 1) = none ∧
    firstHolding (acceptanceChecks calm (src 0) .read 0 1024) = none := by decide +kernel

theorem witness_DivisionMeetsMapUnits : 1 ≤ 1 ∧ 1 ≤ 1024 ∧ 50331647 + 1 ≤ 50331648 ∧ 0 + 1024 ≤ 50331648 := by decide

/-- The office map with another map control. -/
def officeControl (c : MapControl) : VolumeMap := { officeMap with control := c }

/-- By R13 and R14: the fixed range of a piece and case 3 in its place, the range that wins on surface 79 (2 and 3 cover it), the
default type, GATHER as SEALED on surface 1, and routing enable off on surface 61, the primary of pair 1. -/
theorem witness_DivisionMeetsMapUnits_resolution :
    (31 = 16 * 1 + 262143 / 16384 ∧ officeMap.resolve 1 262143 = ⟨.direct, .primary, .primary, none⟩ ∧
      (officeControl ⟨true, false, .gather, true⟩).resolve 1 262143 = ⟨.sealed, .primary, .primary, none⟩ ∧
      (officeControl ⟨false, true, .gather, true⟩).resolve 191 0 = ⟨.gather, .primary, .primary, none⟩) ∧
      (officeMap.covering 79 = [officeMap.vars[2], officeMap.vars[3]] ∧ (officeMap.resolve 79 0).htype = .void ∧
        officeMap.covering 191 = [] ∧ (officeMap.resolve 191 0).htype = .sealed) ∧
      officeMap.resolve 61 0 = ⟨.gather, .primary, .dual, some 121⟩ ∧
      (officeControl ⟨true, true, .sealed, false⟩).resolve 61 0 = ⟨.gather, .primary, .primary, some 121⟩ := by decide +kernel

/-- Surface 61 with blocks 100..111 staged, and line 4 of surface 70 cached. -/
def buffered : State := { office with jb := { calmJb with
  surfaces := calmJb.surfaces.set 61 ⟨100, 112, .known, none⟩, lines := [{ line61 6 with lo := 100, data := List.replicate 12 7 }]
  retain := [⟨70, 4, List.replicate 16 9⟩] } }

theorem witness_RamReadIsServedAtOnce :
    buffered.powered = true ∧ 150208612 / 67108864 ≠ 7 ∧ 150208612 % 67108864 = 61 * 262144 + 100 ∧
      firstHolding (acceptanceChecks buffered (src 0) .read 150208612 12) = none ∧
      divide (150208612 % 67108864) 12 = [(61, 100, 12)] ∧ (buffered.map.resolve 61 100).htype = .gather ∧
      (buffered.jb.surface 61).sealMark ≤ 100 ∧ 100 + 12 ≤ (buffered.jb.surface 61).appendPoint ∧
      152567872 % 67108864 = 70 * 262144 + 64 ∧ divide (152567872 % 67108864) 16 = [(70, 64, 16)] ∧
      firstHolding (acceptanceChecks buffered (src 0) .read 152567872 16) = none ∧
      (buffered.map.resolve 70 64).htype = .retain ∧ (retainFind buffered.jb.retain 70 4).isSome = true := by decide +kernel

theorem witness_StepKeepsBufferMemory_filing : buffered.jb.BufferWf ∧ buffered.jb.TableWf ∧ buffered.jb.FilingWf ∧
    ∃ t, step buffered = .next t := by
  have lines : buffered.jb.lines = [{ line61 6 with lo := 100, data := List.replicate 12 7 }] := rfl
  have near : ∀ n : Fin 192, buffered.jb.surface n = if n.val = 61 then ⟨100, 112, .known, none⟩ else ⟨100, 100, .known, none⟩ := by
    decide +kernel
  have idle : ∀ d : Fin 4, (buffered.jb.drive d).work = none ∧ (buffered.jb.drive d).parked = none ∧
      (buffered.jb.drive d).pass = none := by decide +kernel
  have quiet (n : Nat) : (buffered.jb.surface n).quarantine = none :=
    near_and_far (m := 192) (P := fun n => (buffered.jb.surface n).quarantine = none)
      (fun n => by rw [near n]; split <;> rfl) (fun n h => by rw [surface_far _ n h]; rfl) n
  refine ⟨⟨by unfold before; decide +kernel, by decide +kernel, by decide +kernel, by decide +kernel⟩,
    ⟨by decide +kernel, by decide +kernel, by decide +kernel⟩, ⟨near_and_far (m := 192) (by decide +kernel) fun n h => ?_, by decide +kernel,
      near_and_far (m := 192) (fun n b lo hi => ?_) fun n h b lo hi => ?_, by decide +kernel, by decide +kernel, fun n q h => ?_,
      by simp [buffered, calmJb, Jukebox.cold], by decide +kernel, fun d w n k h => ?_, fun d c n k h => ?_,
      by simp [buffered, calmJb, Jukebox.cold], fun d p h => ?_, fun d c p h => ?_⟩, _, rfl⟩
  · rw [surface_far _ n h]; decide
  · rw [near n] at lo hi
    split at lo
    · next e =>
      rw [if_pos e] at hi
      have : b / 16 = 6 := by simp only at lo hi; omega
      rw [e, this]; decide +kernel
    · next e => rw [if_neg e] at hi; simp only at lo hi; omega
  · rw [surface_far _ n h] at lo hi; simp only [SurfaceRec.cold] at lo hi; omega
  · rw [quiet n] at h; cases h
  · rw [(idle d).1] at h; cases h
  · rw [(idle d).2.1] at h; cases h
  · rw [(idle d).2.2] at h; cases h
  · rw [(idle d).2.1] at h; cases h

theorem witness_ReservedIntakeIsStaged :
    buffered.powered = true ∧ firstHolding (acceptanceChecks buffered (src 0) .write 150208624 5) = none ∧
      divide (150208624 % 67108864) 5 = [(61, 112, 5)] ∧ (buffered.map.resolve 61 112).htype = .gather ∧
      [1, 2, 3, 4, 5].length = 5 ∧ buffered.batteryLow = false ∧ buffered.jb.picker.inventory = none ∧
      buffered.jb.table = [] ∧ (buffered.jb.surface 61).condition = .known ∧
      (buffered.jb.surface 61).quarantine = none ∧ (buffered.jb.surface 61).sealMark ≤ 112 ∧
      112 ≤ (buffered.jb.surface 61).appendPoint ∧ (buffered.jb.platter 30).present = true ∧
      (buffered.jb.platter 30).held = false ∧ buffered.jb.line 61 7 = none ∧ 1 + buffered.jb.lines.length ≤ 32 := by
  decide +kernel

/-- What becomes of a WRITE of `n` blocks at block `b` of surface 61: its state, its status and its segments' states. -/
def intake (s : State) (b n : Nat) : List (ReqState × Status × List SegState) :=
  ((after (.write (src 0) (150208512 + b) n (List.replicate n 5)) s).jb.table.filter fun q => q.initiator = 0).map fun q =>
    (q.state, q.status, q.segments.map (·.state))

/-- The request of another initiator, waiting at the head of the staging reservation queue. -/
def waiting : Request := { request .write .stagingWait [{ segment .gather .queued with surface := 61, first := 112, count := 4 }] with
  initiator := 1, stagingExpiry := some 30000 }

theorem witness_ReservedIntakeIsStaged_refused :
    intake buffered 99 5 = [(.completing, .protect, [.done])] ∧ intake buffered 113 5 = [(.completing, .gap, [.done])] ∧
      intake { buffered with jb := buffered.jb.onSurface 61 fun r => { r with quarantine := some ⟨6, .primary, 3⟩ } } 112 5 =
        [(.completing, .quarantined, [.done])] ∧
      intake { buffered with jb := buffered.jb.onPlatter 30 fun r => { r with held := true } } 112 5 =
        [(.completing, .unavailable, [.done])] := by decide +kernel

theorem witness_ReservedIntakeIsStaged_waits :
    intake { buffered with jb := { buffered.jb with table := [waiting] } } 112 5 = [(.stagingWait, .good, [.queued])] ∧
      intake { buffered with jb := buffered.jb.onLine 61 6 fun l => { l with state := .flushing } } 111 5 =
        [(.stagingWait, .good, [.queued])] ∧
      intake { buffered with jb := buffered.jb.onPicker fun p => { p with inventory := some (.slot 3) } } 112 5 =
        [(.stagingWait, .good, [.queued])] := by decide +kernel

theorem witness_ReservedIntakeIsStaged_low :
    intake { buffered with batteryLow := true } 112 5 = [(.active, .good, [.queued])] ∧
      (buffered.jb.line 61 7).isNone = true ∧ (buffered.jb.line 61 6).all (fun l => l.state != .pinned) = true := by
  decide +kernel

theorem witness_ReservedIntakeIsStaged_two :
    intake { twoSurfaces with jb := twoSurfaces.jb.onSurface 62 fun r => { r with sealMark := 0, appendPoint := 0 } } 262140 8 =
      [(.completing, .good, [.done, .done])] := by decide +kernel

/-- A COMPLETING request in the table. -/
def done (k : Kind) (c : Nat) (st : Status) : State := { office with
  fee := { FeeUnit.cold with active := officeTariff, activeCount := 1 }
  jb := { calmJb with table :=
    [{ request k .completing [segment .sealed .done] with feeClass := c, status := st, billable := 288, staged := 12 }] } }

theorem witness_StatusSendLeavesTheTable :
    ((done .write 3 .good).jb.request 0 5).isSome = true ∧
      (done .write 3 .good).jb.table.all (fun q => q.state = .completing && q.kind = .write) = true ∧
      (done .read 0 .good).jb.table.all (fun q => q.feeClass = 0) = true ∧ calm.jb.request 0 5 = none := by decide +kernel

theorem witness_CopyFeeIsTallied :
    (done .read 3 .good).jb.request 0 5 = (done .read 3 .good).jb.table.head? ∧
      (done .read 3 .good).jb.table.all (fun q => q.state = .completing && q.kind = .read && q.feeClass = (2 : Fin 7).val + 1) = true ∧
      (done .read 3 .blank).jb.table.all (fun q => q.status = .blank) = true ∧
      (after (.statusSend 0 5) (done .read 3 .good)).fee.tallies[0][2] = ⟨1093, 9, 1, false⟩ ∧
      (after (.statusSend 0 5) (done .read 3 .good)).fee.sides[0] = ⟨0, 12⟩ := by decide +kernel

theorem witness_FrontBusResetDropsEveryRequest : calm.powered = true ∧
    (∀ d, (calm.jb.drive d).preempt = none ∧ (calm.jb.drive d).parked = none ∧ (calm.jb.drive d).work = none) := by
  decide +kernel

/-- Drive 1 moves blocks for a segment of a type whose request a front bus reset has dropped, with dispatch enable off. -/
def droppedOn (k : Kind) (ty : HType) (f : Drive → Drive) : State :=
  let s := after .frontBusReset (working k ty f)
  { s with settings := { Settings.cold with dispatch := false }, jb := { s.jb with retain := [⟨40, 1, []⟩, ⟨40, 7, []⟩] } }

theorem witness_FrontBusResetDropsEveryRequest_dropped :
    let write (st : DriveState) (n : Nat) := droppedOn .write .retain fun x =>
      { x with state := st, left := n, pass := some ⟨.primary, 0⟩ }
    let lines (c : Instr) (s : State) := (after c s).jb.retain.map (·.index)
    let ready (c : Instr) (s : State) : Bool := ((after c s).jb.drive 1).state = .ready && (after c s).jb.bus.isEmpty
    (∀ s ∈ [droppedOn .read .sealed id, write .transfer 70, write .verify 0],
      ((s.jb.drive 1).work.bind (·.dropped)).isSome ∧ (s.jb.drive 1).offlineFlag = false ∧ 0 < s.settings.dwell) ∧
      (ready (.burstEnd 1 []) (droppedOn .read .sealed id) ∧ ready (.burstEnd 1 []) (write .transfer 70) ∧
        ready (.verifyEnd 1 false) (write .verify 0)) ∧
      lines (.burstEnd 1 []) (write .transfer 70) = [7] ∧
      lines (.verifyEnd 1 true) (write .verify 0) = [7] := by decide +kernel

theorem witness_DeadlinesEndRequests :
    let active : State := working .read .sealed id
    let waits : State := { office with jb := { calmJb with table := [request .write .stagingWait [segment .gather .queued]] } }
    active.jb.holderOf ⟨0, 5, 0⟩ = some 1 ∧ (active.jb.drive 1).state = .transfer ∧
      waits.jb.stagingQueue.length = 1 ∧ waits.jb.table.all (fun q => q.deadline.isSome) = true ∧
      ((done .read 3 .good).jb.table.map fun q => (q.initiator, q.tag)).Nodup ∧
      (after (.requestDeadlineExpiry 0 5) active).jb.table.map (·.status) = [.timeout] ∧
      (after (.stagingWaitLimitExpiry 0 5) waits).jb.table.map (·.status) = [.stagingTimeout] := by decide +kernel

/-- Drive 1 holds the segment of a request and awaits an exchange for it, with dispatch enable off. -/
def awaits (o : Order) : State :=
  let s := busyWith o
  { s with
    settings := { Settings.cold with dispatch := false }
    jb := { (s.jb.onDrive 1 fun x => { x with work := some ⟨.request ⟨0, 5, 0⟩, .counter, [], none, none⟩ }) with
      table := [request .read .active [segment .sealed .inService]] } }

theorem witness_DeadlinesEndRequests_exchange :
    let t (o : Order) := (after (.requestDeadlineExpiry 0 5) (awaits o)).jb
    (∀ n ∈ [1, 2, 3, 4, 5, 6], (awaits (order1 n)).jb.OrdersWf ∧ (awaits (order1 n)).jb.holderOf ⟨0, 5, 0⟩ = some 1 ∧
        ((t (order1 n)).drive 1).work = none) ∧
      (awaits (order1 1)).jb.TableWf ∧
      (t { order1 1 with state := .queued }).orders = [] ∧ (t (order1 3)).orders.map (·.kind) = [.returnHome] ∧
      ((t (order1 4)).orders = [] ∧ (t (order1 4)).picker.state = .parked) ∧
      (t (order1 5)).orders.map (·.step) = [5] := by
  refine ⟨fun n h => ?_, ⟨by decide +kernel, by decide +kernel, by decide +kernel⟩, by decide +kernel, by decide +kernel,
    by decide +kernel, by decide +kernel⟩
  fin_cases h <;> exact ⟨⟨by decide +kernel, by decide +kernel⟩, by decide +kernel, by decide +kernel⟩

/-- A reset cancels the QUEUED order of drive 2 with the step 4 order of drive 1, so that drive 2 keeps its surface (R40, R83). -/
theorem test_reset_keeps_the_mounted_surface :
    let s := awaits (order1 4)
    let t := (after .frontBusReset { s with jb := { (s.jb.onDrive 2 fun x => { x with
        state := .ready, platter := some 20, mounted := some 40
        work := some ⟨.request ⟨0, 5, 1⟩, .counter, [], none, none⟩ }) with
      orders := [order1 4, ⟨2, .exchange, some 20, some 30, some .a, false, 1, .queued, false, false⟩]
      table := [request .read .active [segment .sealed .inService, segment .sealed .inService]] } }).jb
    t.orders = [] ∧ t.picker.state = .parked ∧ (t.drive 2).mounted = some 40 := by decide +kernel

/-- Drive 1 has parked a read segment, with dispatch enable off. -/
def parkedRead : State := { office with
  settings := { Settings.cold with dispatch := false }
  jb := { (calmJb.onDrive 1 fun x => { x with
      platter := some 25, mounted := some 50, state := .transfer, left := 3
      work := some ⟨.request ⟨1, 0, 0⟩, .express, List.replicate 3 .platter, none, none⟩
      parked := some ⟨.request ⟨0, 5, 0⟩, .counter, 40, 60, 30, none⟩ }) with
    table := [request .read .active [segment .sealed .parked]] } }

theorem witness_DeadlinesEndRequests_parked :
    (parkedRead.jb.parkedOn ⟨0, 5, 0⟩).map (·.1) = some 1 ∧
      ((after (.requestDeadlineExpiry 0 5) parkedRead).jb.drive 1).parked = none := by decide +kernel

theorem witness_DueLinesAreFlushed : busyOffice.MayCommand (src 0) ∧ (busyOffice.jb.linesOf 61).head? = some (line61 6) ∧
    (busyOffice.jb.surface 61).condition = .known ∧ (busyOffice.jb.surface 61).quarantine = none ∧
    busyOffice.jb.flush 61 = none ∧ ({ Settings.cold with dispatch := false } : Settings).dispatch = false :=
  ⟨⟨rfl, by decide⟩, by decide +kernel, by decide +kernel, by decide +kernel, by decide +kernel, rfl⟩

/-- Surface 61 is quarantined on line 6. -/
def pinned : State := { office with
  settings := { Settings.cold with dispatch := false }
  jb := { calmJb with
    surfaces := calmJb.surfaces.set 61 ⟨100, 112, .known, some ⟨6, .primary, 3⟩⟩, lines := [{ line61 6 with state := .pinned }] } }

theorem witness_ReleaseQuarantine : pinned.MayCommand (src 0) ∧ 191 < (192 : Byte).toNat ∧ (191 : Byte).toNat ≤ 191 ∧
    (pinned.jb.surface 191).quarantine = none ∧ (pinned.jb.surface 61).quarantine = some ⟨6, .primary, 3⟩ ∧
    pinned.jb.NoIntake ∧ (pinned.jb.linesOf 61).head?.map (·.index) = some 6 ∧ pinned.jb.flush 61 = none :=
  ⟨⟨rfl, by decide⟩, by decide, by decide, by decide +kernel, by decide +kernel, by unfold Jukebox.NoIntake; decide +kernel, by decide +kernel,
    by decide +kernel⟩

theorem witness_RestoreSealMakesKnown : State.reset.MayCommand (src 0) ∧ 191 < (192 : Byte).toNat ∧
    (calm.jb.surface 191).condition = .known ∧ (State.reset.jb.surface 191).condition = .unknown :=
  ⟨⟨rfl, by decide⟩, by decide, by decide +kernel, by decide +kernel⟩

/-- Drive 2 is in FAULT with a held platter. -/
def heldFault : State := calmWith fun j => (j.onDrive 2 fun x =>
  { x with state := .fault, platter := some 4, reason := some .eject }).onPlatter 4 fun r => { r with held := true }

theorem witness_ClearDriveByWhatItHolds : emptyFault.MayCommand (src 0) ∧ 4 ≤ (4 : Byte).toNat ∧
    (calm.jb.drive 0).state ≠ .fault ∧ (emptyFault.jb.drive 0).state = .fault ∧ (emptyFault.jb.drive 0).platter = none ∧
    emptyFault.jb.NoWork ∧ emptyFault.jb.orders = [] ∧ (heldFault.jb.drive 2).platter = some 4 ∧
    (heldFault.jb.platter 4).held = true :=
  ⟨⟨rfl, by decide⟩, by decide, by decide +kernel, by decide +kernel, by decide +kernel, ⟨rfl, rfl⟩, rfl, by decide +kernel,
    by decide +kernel⟩

theorem witness_OfflineAndReturn : calm.MayCommand (src 0) ∧ 4 ≤ (4 : Byte).toNat ∧
    ((calm.jb.drive 3).state = .empty ∧ (calm.jb.drive 3).offlineFlag = false ∧ (calm.jb.drive 3).work = none) ∧
    ((working .read .sealed id).jb.drive 1).work ≠ none ∧
    (let s := driveIs 1 { Drive.bare with state := .ready, platter := some 20, mounted := some 40 };
      (s.jb.drive 1).state = .ready ∧ s.jb.picker.inventory = none) ∧
    (busyWith (order1 4)).jb.picker.state ≠ .parked ∧
    (let s := driveIs 1 { Drive.bare with state := .offline };
      (s.jb.drive 1).state = .offline ∧ (s.jb.drive 1).work = none) ∧ calm.jb.NoWork :=
  ⟨⟨rfl, by decide⟩, by decide, by decide +kernel, by decide +kernel, by decide +kernel, by decide +kernel, by decide +kernel,
    rfl, rfl⟩

theorem witness_OfflineAndReturn_ready :
    let s (st : PickerState) := calmWith fun j =>
      (j.onDrive 1 fun x => { x with state := .ready, platter := some 20, mounted := some 40 }).onPicker fun p => { p with state := st }
    (after (.takeOffline (src 0) 1) (s .parked)).jb.orders.map (·.state) = [.running] ∧
      (after (.takeOffline (src 0) 1) (s .halted)).jb.orders.map (·.state) = [.queued] := by decide +kernel

theorem witness_OfflineAndReturn_flagged :
    ((after (.takeOffline (src 0) 1) (busyWith (order1 1))).jb.drive 1).offlineFlag = true ∧
      ((after (.takeOffline (src 0) 1) (busyWith (order1 4))).jb.drive 1).state = .empty ∧
      ((after (.takeOffline (src 0) 1) (working .read .sealed id)).jb.drive 1).state = .transfer := by decide +kernel

/-- The RETURN HOME of a cancellation makes drive 1 OFFLINE at its release; during any other the EMPTY drive is so at once (R164). -/
theorem test_offline_in_step_3 :
    let home (c : Bool) : State :=
      after (.takeOffline (src 0) 1) (busyWith { order1 3 with kind := .returnHome, incoming := none, cancelled := c })
    ((home false).jb.drive 1).state = .offline ∧ ((home true).jb.drive 1).state = .empty ∧
      ((after .platterReleaseInSlot (home true)).jb.drive 1).state = .offline := by decide +kernel

/-- The calm part with its picker changed. -/
def pickerIs (f : Picker → Picker) : State := calmWith fun j => j.onPicker f

theorem witness_DoorHaltsThePicker :
    (pickerIs fun p => { p with state := .fault }).jb.picker.state = .fault ∧
      (pickerIs fun p => { p with state := .halted, door := .settling }).jb.picker.state = .halted ∧
      calm.jb.picker.state = .parked ∧ (pickerIs fun p => { p with door := .opened }).jb.picker.door = .opened ∧
      calm.jb.picker.door = .closed ∧ ({ Settings.cold with autoResume := false } : Settings).autoResume = false := by
  decide +kernel

/-- The picker is HALTED, to return to a state, awaiting RESUME PICKER. -/
def haltedFrom (b : PickerState) (f : Picker → Picker) (orders : List Order) : State :=
  calmWith fun j => { (j.onPicker fun p => f { p with state := .halted, halt := some ⟨b, true⟩ }) with orders := orders }

theorem witness_ResumptionRestartsTheStep :
    (haltedFrom .parked id []).MayCommand (src 0) ∧ (haltedFrom .parked id []).jb.picker.door = .closed ∧
      (haltedFrom .parked id []).jb.picker.halt = some ⟨.parked, true⟩ ∧
      (haltedFrom .busy id [{ order1 4 with state := .halted }]).jb.picker.recovering = false ∧
      (haltedFrom .busy (fun p => { p with recovering := true }) []).jb.picker.recovering = true ∧
      (haltedFrom .inventory (fun p => { p with inventory := some (.slot 95) }) []).jb.picker.inventory = some (.slot 95) ∧
      (haltedFrom .parked (fun p => { p with door := .settling }) []).settings.autoResume = true ∧
      calm.jb.picker.state ≠ .halted ∧ (pickerIs fun p => { p with door := .opened }).jb.picker.door ≠ .closed :=
  ⟨⟨rfl, by decide⟩, by decide +kernel, by decide +kernel, by decide +kernel, by decide +kernel, by decide +kernel,
    by decide +kernel, by decide +kernel, by decide +kernel⟩

theorem witness_ResumptionRestartsTheStep_unload :
    let s (x : Option Position) (b : Bool) : State :=
      let t := haltedFrom .busy (fun p => { p with position := x }) [{ order1 1 with state := .halted }]
      { t with jb := t.jb.onDrive 1 fun y => { y with ejected := b } }
    let t (x : Option Position) (b : Bool) := (after (.resumePicker (src 0)) (s x b)).jb
    (s none false).MayCommand (src 0) ∧ (t none true).picker.stepLimit = some 15000 ∧
      (t (some (.drive 1)) false).picker.stepLimit = none ∧ (t (some (.drive 1)) true).orders.map (·.step) = [2] :=
  ⟨⟨rfl, by decide⟩, by decide +kernel, by decide +kernel, by decide +kernel⟩

theorem witness_ClearPickerRecovers :
    let bad := pickerIs fun p => { p with state := .fault, gripped := some 7, reason := some .grip }
    bad.MayCommand (src 0) ∧ bad.jb.picker.door = .closed ∧ bad.jb.picker.state = .fault ∧ bad.jb.picker.inventory = none ∧
      bad.jb.orders = [] ∧
      (pickerIs fun p => { p with state := .fault, gripped := some 7, inventory := some (.gripStuck 7) }).jb.picker.inventory =
        some (.gripStuck 7) ∧
      ({ order1 5 with state := .halted } : Order).step ∈ [2, 3, 5, 6] ∧
      (pickerIs fun p => { p with state := .busy, gripped := some 7, recovering := true }).jb.picker.recovering = true ∧
      calm.jb.NoWork :=
  ⟨⟨rfl, by decide⟩, by decide +kernel, by decide +kernel, by decide +kernel, by decide +kernel, by decide +kernel,
    by decide, by decide +kernel, rfl, rfl⟩

theorem witness_ClearPickerRecovers_taken :
    let s (taken : List Nat) (os : List Order) := calmWith fun j =>
      { (j.onPicker fun p => { p with state := .fault, gripped := some 7, reason := some .grip, slotTaken := taken }) with orders := os }
    answer (.clearPicker (src 0) .asRecorded) (s [7] []) = ⟨0x25, .refused, .state, 1⟩ ∧
      (after (.clearPicker (src 0) .asRecorded) (s [8] [])).jb.picker.recovering = true ∧
      (after (.clearPicker (src 0) .nothing) (s [] [])).jb.picker.state = .parked ∧
      (∀ n ∈ [2, 3, 5, 6], (after (.clearPicker (src 0) .nothing) (s [] [{ order1 n with state := .halted }])).jb.orders.map
        (·.state) = [.running]) := by decide +kernel

/-- The picker carries platter 2 home in recovery, with a HALTED order for drive 1. -/
def recovers (o : Order) : State := calmWith fun j =>
  { (j.onPicker fun p => { p with state := .busy, recovering := true, gripped := some 2, inventory := none }) with
    orders := [{ o with state := .halted }] }

theorem witness_ClearPickerRecovers_orders :
    let t (o : Order) := (after (.pickerRecoveryRelease true) (recovers o)).jb.orders.map fun o => (o.kind, o.step, o.state)
    t { order1 3 with kind := .returnHome, incoming := none } = [] ∧ t (order1 3) = [(.exchange, 4, .running)] ∧
      t { order1 5 with kind := .turnover, incoming := some 2 } = [(.exchange, 4, .running)] ∧ calm.jb.NoWork ∧
      calm.jb.NoIntake :=
  ⟨by decide +kernel, by decide +kernel, by decide +kernel, ⟨rfl, rfl⟩, by unfold Jukebox.NoIntake; decide +kernel⟩

/-- The picker is in FAULT, gripping nothing, with step 1 or 4 of an order HALTED and dispatch enable off; drive 1 holds a segment
of surface 7, mirrored on surface 50, whose platter 3 is there or missing. -/
def halted4 (k : Kind) (pass : Option Pass) (o : Order) (there : Bool) : State := { office with
  settings := { Settings.cold with dispatch := false }
  jb := { ((calmJb.onDrive 1 fun x => { x with work := some ⟨.request ⟨0, 5, 0⟩, .counter, [], none, none⟩, pass := pass }).onPlatter 3
      fun r => if there then r else { r with present := false, location := none }) with
    picker := { calmJb.picker with state := .fault, reason := some .grip }
    orders := [{ o with state := .halted }]
    table := [request k .active [{ segment .sealed .inService with surface := 7, mirror := some 50 }]] } }

theorem witness_ClearPickerRecovers_missing :
    let t (s : State) := (after (.clearPicker (src 0) .nothing) s).jb
    (halted4 .read none (order1 4) false).MayCommand (src 0) ∧
      ((t (halted4 .read none (order1 4) false)).orders = [] ∧
        (t (halted4 .read none (order1 4) false)).table.map (fun q => q.segments.map fun g => (g.state, g.readSide)) =
          [[(.queued, .mirror)]]) ∧
      (t (halted4 .write (some ⟨.primary, 1⟩) (order1 4) false)).table.map
        (fun q => q.segments.map fun g => (g.state, g.failedVerify)) = [[(.queued, 1)]] ∧
      (t (halted4 .read none (order1 4) true)).orders.map (·.state) = [.running] ∧
      (t (halted4 .read none (order1 1) true)).picker.stepLimit = some 15000 :=
  ⟨⟨rfl, by decide⟩, by decide +kernel, by decide +kernel, by decide +kernel, by decide +kernel⟩

/-- The express order drive 1 places as its segment of a missing platter is handed back starts before the QUEUED order of
drive 2 (R77, R160). -/
theorem test_missing_platter_hands_back_first :
    let t := (after (.clearPicker (src 0) .nothing) (calmWith fun j => { ((j.onDrive 1 fun x =>
        { x with work := some ⟨.request ⟨0, 5, 0⟩, .counter, [], none, none⟩ }).onPlatter 3 fun r =>
          { r with present := false, location := none }) with
      picker := { j.picker with state := .fault, reason := some .grip }
      orders := [{ order1 4 with state := .halted }, ⟨2, .returnHome, some 9, none, none, false, 1, .queued, false, false⟩]
      table := [request .read .active [{ segment .sealed .inService with surface := 7 }],
        { request .read .active [segment .sealed .queued] with tag := 6, level := .express }] })).jb
    t.orders.map (fun o => (o.drive, o.state)) = [(1, .running), (2, .queued)] := by decide +kernel

theorem witness_PickerFaultHaltsTheOrder : (busyWith (order1 2)).jb.picker.stepLimit ≠ none ∧
    (busyWith (order1 2)).jb.picker.state = .busy ∧ calm.jb.picker.stepLimit = none ∧
    (busyWith (order1 4)).jb.orders = [order1 4] ∧ (order1 4).incoming = some 3 ∧ (busyWith (order1 4)).jb.table = [] ∧
    ((busyWith (order1 4)).jb.platter 3).location = some .slot ∧ (busyWith (order1 4)).jb.picker.inventory = none := by
  decide +kernel

/-- Step 2 of an order that takes platter 2 from drive 1, the platter being at the mouth, with drive 1 changed. -/
def atMouth (k : OrderKind) (f : Drive → Drive) : State :=
  let s := busyWith { order1 2 with kind := k }
  { s with jb := s.jb.onDrive 1 fun x => f { x with ejected := true } }

theorem witness_PickerTakesFromTheDrive : (busyWith (order1 1)).jb.picker.state = .busy ∧
    (atMouth .exchange id).jb.orders = [order1 2] ∧ (order1 2).state = .running ∧ (order1 2).outgoing = some 2 ∧
    (atMouth .exchange id).jb.picker.gripped = none ∧ ((atMouth .exchange id).jb.drive 1).platter = some 2 ∧
    (atMouth .returnHome id).jb.table = [] ∧ (atMouth .returnHome id).jb.flushes = [] ∧
    ((atMouth .returnHome id).jb.drive 1).work = none ∧ ((atMouth .returnHome id).jb.drive 1).parked = none ∧
    (after .pickerGripAtDrive (atMouth .turnover id)).jb.orders.map (·.step) = [5] ∧
    ((after .pickerGripAtDrive (atMouth .returnHome fun x => { x with offlineFlag := true })).jb.drive 1).state = .offline ∧
    ((after .pickerGripAtDrive (atMouth .exchange fun x =>
      { x with work := some ⟨.request ⟨0, 5, 0⟩, .counter, [], none, none⟩ })).jb.drive 1).state = .empty := by decide +kernel

theorem witness_PickerCarriesBetweenSlotAndDrive :
    (busyWith { order1 3 with kind := .returnHome }).jb.orders = [{ order1 3 with kind := .returnHome }] ∧
      (busyWith (order1 3)).jb.picker.state = .busy ∧ (busyWith (order1 3)).jb.picker.recovering = false ∧
      (order1 3).outgoing = some 2 ∧ (busyWith (order1 3)).jb.picker.gripped = some 2 ∧ (order1 4).incoming = some 3 ∧
      (busyWith (order1 4)).jb.picker.gripped = none ∧ ((busyWith (order1 4)).jb.platter 3).location = some .slot ∧
      (busyWith (order1 5)).jb.picker.gripped = some 3 ∧ (order1 6).incoming = some 3 ∧
      (busyWith (order1 6)).jb.picker.gripped = some 3 ∧ ((busyWith (order1 6)).jb.drive 1).platter = none ∧
      (busyWith (order1 3)).jb.table = [] ∧ (busyWith (order1 3)).jb.flushes = [] := by decide +kernel

theorem witness_InventoryChecksEverySlot :
    (pickerIs fun p => { p with state := .inventory, inventory := some (.slot 94) }).jb.picker.inventory = some (.slot 94) ∧
      (pickerIs fun p => { p with state := .inventory, inventory := some (.slot 95) }).jb.picker.state = .inventory ∧
      94 < 95 ∧ calm.jb.orders = [] ∧ calm.jb.table = [] ∧ calm.jb.flushes = [] := by decide +kernel

/-- Inventory is at a task, drives 0 and 1 hold platters 20 and 21 and drive 1 is changed; the picker grips platter 7 or none. -/
def inventoryAt (t : InvTask) (grip : Option Nat) (f : Drive → Drive) : State := calmWith fun j =>
  (((j.onDrive 0 fun x => { x with platter := some 20 }).onDrive 1 fun x => f { x with platter := some 21 }).onPicker fun p =>
    { p with state := .inventory, inventory := some t, gripped := grip })

theorem witness_InventoryChecksEverySlot_grip :
    let found : Option Found := some ⟨7, .a⟩
    let at' (c : Instr) (s : State) := (after c s).jb.picker.inventory
    at' (.inventorySlotCheck none) (inventoryAt (.gripCheck 7) (some 7) id) = some (.gripRelease 7) ∧
      at' (.inventorySlotCheck found) (inventoryAt (.gripCheck 7) (some 7) id) = some (.gripInsert 7 2) ∧
      (let s := inventoryAt (.gripCheck 7) (some 7) id;
        (after (.inventorySlotCheck found) { s with jb := (s.jb.onDrive 2 fun x => { x with platter := some 22 }).onDrive 3 (fun x =>
          { x with platter := some 23 }) }).jb.picker.state = .fault) ∧
      at' .platterReleaseInSlot (inventoryAt (.gripRelease 7) (some 7) id) = some (.driveCheck 0) ∧
      ((after .platterSeated (inventoryAt (.gripInsert 7 2) (some 7) id)).jb.drive 2).reason = some .orphan := by decide +kernel

theorem witness_InventoryChecksEverySlot_drive :
    let at' (c : Instr) (s : State) := (after c s).jb.picker.inventory
    let faulted (b : Bool) (x : Drive) : Drive := { x with state := .fault, ejecting := b }
    let check (f : Drive → Drive) : State := inventoryAt (.driveCheck 1) none f
    (((after (.inventorySlotCheck (some ⟨21, .a⟩)) (check id)).jb.drive 1).reason = some .orphan ∧
      ((after (.inventorySlotCheck none) (check fun x => { x with state := .ready })).jb.drive 1).state = .unloading ∧
      at' (.inventorySlotCheck none) (check (faulted true)) = some (.driveUnload 1) ∧
      ((after (.inventorySlotCheck none) (check (faulted false))).jb.platter 21).held = true) ∧
      at' .pickerArrivesAtDrive (inventoryAt (.driveUnload 1) none fun x => { x with ejected := true }) = some (.driveGrip 1) ∧
      at' .pickerGripAtDrive (inventoryAt (.driveGrip 1) none id) = some (.driveCarry 1 21) ∧
      ((after .platterReleaseInSlot (inventoryAt (.driveCarry 1 21) (some 21) fun x => { x with reported := some 43 })).jb.platter
        21).orientation = .b := by decide +kernel

theorem witness_RankingFollowsTheCodes : Settings.cold.InRange ∧ Settings.cold.lowWater < 5 ∧ 4 ≤ Settings.cold.lowWater :=
  ⟨⟨by decide, by decide, by decide, by decide, by decide, by decide, by decide⟩, by decide, by decide⟩

/-- The office with its four drives made by a function, and a READ of surface 50 through window 2 or, express, window 3. -/
def pushed (x : Drive) (f : Jukebox → Jukebox) (lba : Nat) : State :=
  after (.read (src 0) lba 5) { office with jb := f { calmJb with drives := Vector.replicate 4 x } }

/-- A drive that dwells with surface 20 mounted, and one that serves a STAFF segment. -/
def dweller : Drive := { Drive.bare with state := .ready, platter := some 10, mounted := some 20, dwell := some 1500, lastUse := 9 }
def staffed : Drive := { Drive.bare with
  state := .transfer, platter := some 10, mounted := some 20, left := 9, work := some ⟨.request ⟨1, 1, 0⟩, .staff, [], none, none⟩ }

theorem witness_RankingFollowsTheCodes_push :
    147324928 / 67108864 ≠ 7 ∧ firstHolding (acceptanceChecks office (src 0) .read 147324928 5) = none ∧
      divide (147324928 % 67108864) 5 = [(50, 0, 5)] ∧ (office.map.resolve 50 0) = ⟨.sealed, .primary, .primary, none⟩ ∧
      ((pushed Drive.bare id 147324928).jb.drive 0).work.isSome = true ∧
      ((pushed dweller (fun j => (j.onDrive 2 fun x => { x with platter := some 25, mounted := some 50 }).onPlatter 25 fun r =>
        { r with location := some (.drive 2) }) 147324928).jb.drive 2).work.isSome = true ∧
      ((pushed dweller (fun j => j.onDrive 3 fun x => { x with lastUse := 4 }) 214433792).jb.drive 3).work.isSome = true ∧
      ((pushed staffed (fun j => j.onDrive 1 fun x => { x with left := 10 }) 214433792).jb.drive 1).preempt = some ⟨0, 5, 0⟩ ∧
      (pushed staffed id 147324928).jb.table.map (fun q => q.segments.map (·.state)) = [[.queued]] := by decide +kernel

/-- Drive 1 dwells with surface 40 mounted, and a READ of that surface waits. -/
def dwelling : State := { office with jb := { (calmJb.onDrive 1 fun x =>
    { x with state := .ready, platter := some 20, mounted := some 40, dwell := some 1500 }).onPlatter 20 fun r =>
      { r with location := some (.drive 1) } with table := [request .read .active [segment .sealed .queued]] } }

theorem witness_SpinUpAndDwellEnd : (loading.jb.drive 2).platter = some 4 ∧ (loading.jb.drive 2).state = .loading ∧
    (loading.jb.drive 2).work = none ∧ loading.jb.orders = [] ∧ (calm.jb.drive 2).state ≠ .loading ∧
    (calm.jb.drive 2).dwell = none ∧ (dwelling.jb.drive 1).dwell ≠ none ∧ dwelling.settings.dispatch = true ∧
    dwelling.jb.idle 1 = true ∧ dwelling.settings.enables .counter = true ∧
    ((dwelling.jb.queued .counter).any fun it => dwelling.jb.eligible it.target 1) = true ∧
    ((after (.dwellDeadlineExpiry 1) dwelling).jb.drive 1).state = .transfer := by decide +kernel

/-- An older COUNTER read of surface 50 waits too; the drive takes the one for its mounted surface, and with surface 41 mounted
the older one. -/
theorem witness_SpinUpAndDwellEnd_pull :
    let older : Request := { request .read .active [{ segment .sealed .queued with surface := 50 }] with initiator := 1 }
    let s (m : Nat) : State := { dwelling with
      jb := { dwelling.jb.onDrive 1 fun x => { x with mounted := some m } with table := older :: dwelling.jb.table } }
    let takes (m : Nat) := ((after (.dwellDeadlineExpiry 1) (s m)).jb.drive 1).work.map (·.ref)
    ((s 40).jb.queued .counter).map (·.target) = [50, 40] ∧ (s 40).jb.eligible 50 1 = true ∧
      takes 40 = some (.request ⟨0, 5, 0⟩) ∧ takes 41 = some (.request ⟨1, 5, 0⟩) := by decide +kernel

theorem witness_SpinUpAndDwellEnd_still :
    let off : State := { dwelling with settings := { Settings.cold with dispatch := false } }
    let masked : State := { dwelling with settings := { Settings.cold with levelMask := 0b11101 } }
    masked.settings.enables .counter = false ∧
      ∀ s ∈ [off, masked], (((after (.dwellDeadlineExpiry 1) s).jb.drive 1).state,
        ((after (.dwellDeadlineExpiry 1) s).jb.drive 1).dwell) = (.ready, none) := by decide +kernel

theorem witness_SpinUpAndDwellEnd_work :
    let s (k : Kind) (ty : HType) := working k ty fun x => { x with state := .loading, mounted := none }
    let t (k : Kind) (ty : HType) := (after (.spinUpComplete 1) (s k ty)).jb
    let f := flushing 0 (fun x => { x with state := .loading }) id
    ((s .read .sealed).jb.segment ⟨0, 5, 0⟩).isSome = true ∧ ((s .read .sealed).jb.drive 1).platter = some 20 ∧
      ((t .read .gather).drive 1).work.map (·.reached.take 1) = some [.platter] ∧
      (t .write .direct).bus = [.fetch 0 5 144703508 64] ∧ ((after (.spinUpComplete 1) f).jb.drive 1).state = .transfer := by
  decide +kernel

/-- A write segment in a pass of drive 1, the segment and the drive changed, with dispatch enable off. -/
def writing (p : Pass) (st : ReqState) (f : Drive → Drive) (h : Segment → Segment) : State :=
  let s := working .write .direct fun x => f { x with pass := some p }
  { s with
    settings := { Settings.cold with dispatch := false }
    jb := { s.jb with table := [request .write st [h (segment .direct .inService)]] } }

theorem witness_WritePassesAreVerified :
    let s (f : Drive → Drive) := writing ⟨.primary, 2⟩ .active f id
    (s id).jb.request 0 5 = some (request .write .active [segment .direct .inService]) ∧
      ((s id).jb.drive 1).work = some ⟨.request ⟨0, 5, 0⟩, .write, [], none, none⟩ ∧ ((s id).jb.drive 1).preempt = none ∧
      64 < ((s id).jb.drive 1).left ∧ ((s fun x => { x with left := 64 }).jb.drive 1).left ≤ 64 ∧
      ((s fun x => { x with state := .verify }).jb.drive 1).state = .verify ∧ (s id).jb.flushes = [] ∧
      (s id).jb.orders = [] ∧ ((s id).jb.drive 1).parked = none ∧ 0 < (s id).settings.dwell ∧
      ((after (.burstEnd 1 []) (s fun x => { x with left := 64 })).jb.drive 1).state = .verify ∧
      (after (.verifyEnd 1 false) (s fun x => { x with state := .verify })).jb.table.map (·.status) = [.mediaError] := by
  decide +kernel

theorem witness_WritePassesAreVerified_table : (writing ⟨.primary, 2⟩ .active id id).jb.TableWf :=
  ⟨by decide +kernel, by decide +kernel, by decide +kernel⟩

theorem witness_WritePassesAreVerified_dual :
    let verify (x : Drive) : Drive := { x with state := .verify }
    let dual (g : Segment) : Segment := { g with writeRoute := .dual, mirror := some 120 }
    let s := writing ⟨.primary, 1⟩ .active verify dual
    let busy := { s with jb := s.jb.onPicker fun p => { p with state := .halted } }
    let away := { s with jb := s.jb.onPlatter 60 fun r => { r with held := true } }
    (busy.jb.drive 1).mounted ≠ some 120 ∧ busy.jb.eligible 120 1 = true ∧
      (after (.verifyEnd 1 true) busy).jb.orders.map (·.incoming) = [some 60] ∧ away.jb.eligible 120 1 = false ∧
      (after (.verifyEnd 1 true) away).jb.table.map (fun q => q.segments.map fun g => (g.state, g.primaryDone, g.failedVerify)) =
        [[(.queued, true, 1)]] := by decide +kernel

theorem witness_WritePassesAreVerified_late :
    let s (st : DriveState) := writing ⟨.primary, 0⟩ .completing (fun x => { x with state := st }) id
    (after (.burstEnd 1 []) (s .transfer)).jb.table.map (fun q => q.segments.map (·.status)) = [[.timeout]] ∧
      (after (.verifyEnd 1 true) (s .verify)).jb.table.map (fun q => q.segments.map (·.status)) = [[.timeout]] := by decide +kernel

/-- The EXPRESS segment that pre-empts: initiator 1, tag 0, surface 50. -/
def express : Request :=
  { request .read .active [{ segment .sealed .queued with surface := 50 }] with initiator := 1, tag := 0, level := .express }

/-- A read on drive 1 with that preemption pending. -/
def preempted : State :=
  let s := working .read .sealed fun x => { x with preempt := some ⟨1, 0, 0⟩ }
  { s with jb := { s.jb with table := s.jb.table ++ [express] } }

/-- A write pass on drive 1 with that preemption pending and some blocks left, and a STAFF segment on drive 2. -/
def preemptedWrite (left : Nat) : State :=
  let s := writing ⟨.primary, 0⟩ .active (fun x => { x with preempt := some ⟨1, 0, 0⟩, left := left }) id
  { s with settings := Settings.cold, jb := { s.jb.onDrive 2 fun _ => staffed with table := s.jb.table ++ [express] } }

theorem witness_WritePassesAreVerified_preempt :
    let parks := (after (.burstEnd 1 []) (preemptedWrite 70)).jb
    let verifies := (after (.burstEnd 1 []) (preemptedWrite 64)).jb
    (preemptedWrite 70).jb.eligible 50 1 = true ∧ (preemptedWrite 70).jb.TableWf ∧
      (parks.drive 1).parked = some ⟨.request ⟨0, 5, 0⟩, .write, 40, 84, 6, some ⟨.primary, 0⟩⟩ ∧
      (parks.drive 1).work.map (·.ref) = some (.request ⟨1, 0, 0⟩) ∧ (preemptedWrite 64).jb.victim 50 2 = true ∧
      (preemptedWrite 64).jb.victim 50 0 = false ∧ (preemptedWrite 64).jb.victim 50 3 = false ∧
      (verifies.drive 1).preempt = none ∧ (verifies.drive 2).preempt = some ⟨1, 0, 0⟩ :=
  ⟨by decide +kernel, ⟨by decide +kernel, by decide +kernel, by decide +kernel⟩, by decide +kernel⟩

theorem witness_OfflineAndReturn_victim :
    let s : State := { preempted with jb := preempted.jb.onDrive 2 fun _ => staffed }
    ((s.jb.itemOf (.request ⟨1, 0, 0⟩)).map (·.level)) = some .express ∧ s.jb.victim 50 2 = true ∧
      s.jb.victim 50 0 = false ∧ s.jb.victim 50 3 = false ∧
      ((after (.takeOffline (src 0) 1) s).jb.drive 2).preempt = some ⟨1, 0, 0⟩ ∧
      ((after (.takeOffline (src 0) 1) s).jb.drive 1).preempt = none := by decide +kernel

theorem witness_DeadlinesEndRequests_preempt :
    ((after (.requestDeadlineExpiry 1 0) preempted).jb.drive 1).preempt = none ∧ preempted.jb.TableWf :=
  ⟨by decide +kernel, by decide +kernel, by decide +kernel, by decide +kernel⟩

theorem witness_ReadBurstsAreServed :
    let s (f : Drive → Drive) (cur : Nat) : State :=
      let s := working .read .sealed fun x => f { x with left := cur }
      { s with jb := s.jb.onSegment ⟨0, 5, 0⟩ fun g => { g with current := cur } }
    ((s id 70).jb.drive 1).left = 70 ∧ ((s id 64).jb.drive 1).left ≤ 64 ∧ ((s id 70).jb.drive 1).preempt = none ∧
      preempted.jb.itemOf (.request ⟨1, 0, 0⟩) = some ⟨.request ⟨1, 0, 0⟩, .express, 50, 70⟩ ∧
      preempted.jb.eligible 50 1 = true ∧ (preempted.jb.drive 1).mounted = some 40 ∧ (s id 70).jb.orders = [] ∧
      (segment .sealed .inService).mirror = none ∧ 63 < 64 ∧
      (after (.burstEnd 1 [(26, .data 3)]) (s id 64)).jb.table.map (fun q => (q.status, q.delivered, q.billable)) =
        [(.blank, 1, 1)] := by decide +kernel

/-- The last burst of a read segment of 3 blocks from block 32 of surface 70 on, of a type, with its sources and its mirror. -/
def lastBurst (ty : HType) (reached : List Source) (mirror : Option Nat) : State :=
  let s := working .read ty fun x => { x with
    platter := some 35, mounted := some 70, left := 3
    work := some ⟨.request ⟨0, 5, 0⟩, .counter, reached, none, none⟩ }
  { s with
    settings := { Settings.cold with dispatch := false }
    jb := { s.jb with
      table := [request .read .active [{ segment ty .inService with
        surface := 70, first := 32, count := 3, current := 3, mirror := mirror }]]
      retain := [⟨70, 9, []⟩, ⟨70, 2, List.replicate 16 4⟩] } }

/-- The status, the blocks delivered and the blocks staged of each request after a burst end. -/
def outcomes (media : List (Nat × MediaRead)) (s : State) : List (Status × Nat × Nat) :=
  (after (.burstEnd 1 media) s).jb.table.map fun q => (q.status, q.delivered, q.staged)

theorem witness_ReadBurstsAreServed_staged :
    outcomes [] (lastBurst .gather [.staged 1, .staged 2, .staged 3] none) = [(.good, 3, 3)] ∧
      outcomes [] (lastBurst .gather [.staged 1, .nothing, .nothing] none) = [(.blank, 1, 1)] := by decide +kernel

theorem witness_ReadBurstsAreServed_cached :
    outcomes [] (lastBurst .retain [.cached 4, .cached 4, .cached 4] none) = [(.good, 3, 0)] ∧
      (after (.burstEnd 1 []) (lastBurst .retain [.cached 4, .cached 4, .cached 4] none)).jb.retain.map (·.index) = [2, 9] := by
  decide +kernel

theorem witness_ReadBurstsAreServed_fill (x : Source) (h : x ∈ [Source.platter, .cached 4]) :
    let s := lastBurst .retain [x, x, x] none
    let all : List (Nat × MediaRead) := (List.range 16).map fun i => (32 + i, .data 6)
    let t : State := { s with jb := { s.jb with retain := [⟨70, 9, []⟩] } }
    (s.map.resolve 70 32).htype = .retain ∧ (after (.burstEnd 1 all) t).jb.retain.map (·.index) = [2, 9] := by
  fin_cases h <;> decide +kernel

theorem witness_ReadBurstsAreServed_fallback :
    let s := lastBurst .sealed [.platter, .platter, .platter] (some 120)
    s.jb.reachable 60 = true ∧
      (after (.burstEnd 1 [(32, .data 1), (33, .unreadable)]) s).jb.table.map (fun q => q.segments.map fun g =>
        (g.state, g.readSide, g.current)) = [[(.queued, .mirror, 2)]] ∧
      outcomes [(32, .data 1), (33, .unreadable)] (lastBurst .sealed [.platter, .platter, .platter] none) =
        [(.mediaError, 1, 0)] := by decide +kernel

/-- The last burst of a read on drive 1 over a parked WRITE of a surface, with other requests in the table and the picker
HALTED. -/
def overParked (surface : Nat) (f : Drive → Drive) (more : List Request) : State :=
  let s := lastBurst .sealed [.platter, .platter, .platter] none
  let held : Request := { request .write .active [{ segment .direct .parked with surface := surface }] with initiator := 2 }
  { s with
    settings := Settings.cold
    jb := { ((s.jb.onDrive 1 fun x => f { x with
        parked := some ⟨.request ⟨2, 5, 0⟩, .write, surface, 40, 50, some ⟨.primary, 0⟩⟩ }).onPlatter 35 fun r =>
          { r with location := some (.drive 1) }).onPicker fun p => { p with state := .halted } with
      table := s.jb.table ++ held :: more } }

/-- Drive 1 after that burst: its state, its segment and whether it holds its parked context. -/
def wentOn (s : State) : DriveState × Option WorkRef × Bool :=
  let x := (after (.burstEnd 1 [(32, .data 1), (33, .data 2), (34, .data 3)]) s).jb.drive 1
  (x.state, x.work.map (·.ref), x.parked.isSome)

theorem witness_ReadBurstsAreServed_parked :
    let near (n : Nat) : Request := { express with segments := [{ segment .sealed .queued with surface := n }] }
    (overParked 71 id []).jb.TableWf ∧ (overParked 70 id []).jb.eligible 70 1 = true ∧
      wentOn (overParked 70 id []) = (.transfer, some (.request ⟨2, 5, 0⟩), false) ∧
      wentOn (overParked 71 id [near 71]) = (.ready, some (.request ⟨2, 5, 0⟩), false) ∧
      wentOn (overParked 71 id [near 70]) = (.transfer, some (.request ⟨1, 0, 0⟩), true) ∧
      wentOn (overParked 71 (fun x => { x with preempt := some ⟨1, 0, 0⟩ }) [near 50]) =
        (.ready, some (.request ⟨1, 0, 0⟩), true) :=
  ⟨⟨by decide +kernel, by decide +kernel, by decide +kernel⟩, by decide +kernel⟩

theorem witness_ReadBurstsAreServed_parkedFlush :
    let s := overParked 70 id []
    let t : State := { s with jb := { s.jb.onDrive 1 fun x => { x with
      parked := some ⟨.flush 61 6, .flush, 61, 106, 6, some ⟨.primary, 0⟩⟩ } with
        flushes := [⟨61, 6, .primary, none, 9, .parked, some (100, 112), false⟩] } }
    wentOn t = (.ready, some (.flush 61 6), false) ∧
      (after (.burstEnd 1 [(32, .data 1)]) t).jb.flushes.map (·.state) = [.inService] := by decide +kernel

theorem witness_ReadBurstsAreServed_late :
    let s := working .read .sealed id
    let late : State := { s with jb := { s.jb with table := [request .read .completing [segment .sealed .inService]] } }
    let t := (after (.burstEnd 1 [(20, .data 1)]) late).jb
    late.jb.flushes = [] ∧ late.jb.orders = [] ∧ 0 < late.settings.dwell ∧ t.bus = [] ∧ (t.drive 1).state = .ready ∧
      t.table.map (fun q => (q.delivered, q.segments.map fun g => (g.status, g.current))) = [(0, [(.timeout, 6)])] := by
  decide +kernel

theorem witness_FlushPassesSealOrQuarantine_preempt :
    let s (left : Nat) : State :=
      let s := flushing 0 (fun x => { x with preempt := some ⟨1, 0, 0⟩, left := left }) id
      { s with jb := { s.jb.onDrive 2 fun _ => staffed with table := [express] } }
    let t (left : Nat) := (after (.burstEnd 1 []) (s left)).jb
    (s 70).jb.eligible 50 1 = true ∧
      ((t 70).drive 1).parked = some ⟨.flush 61 6, .flush, 61, 106, 6, some ⟨.primary, 0⟩⟩ ∧
      (t 70).flushes.map (·.state) = [.parked] ∧ (s 12).jb.victim 50 2 = true ∧ ((t 12).drive 1).preempt = none ∧
      ((t 12).drive 2).preempt = some ⟨1, 0, 0⟩ ∧ (t 12).lines.map (·.state) = [.verifying] := by decide +kernel

theorem witness_FlushPassesSealOrQuarantine :
    let verify (n : Nat) (g : Flush → Flush) := flushing n (fun x => { x with state := .verify }) g
    let dual (f : Flush) : Flush := { f with writeRoute := .dual, mirror := some 121 }
    ((flushing 0 id id).jb.drive 1).left ≤ 64 ∧ ((flushing 0 id id).jb.flush 61).isSome = true ∧
      ((flushing 0 id id).jb.line 61 6).isSome = true ∧ 61 < 192 ∧ ((verify 1 id).jb.line 61 6).map (·.attempts) = some 1 ∧
      ((verify 2 id).jb.line 61 6).map (·.attempts) = some 2 ∧ (verify 0 dual).jb.eligible 121 1 = true ∧
      ((verify 0 dual).jb.drive 1).mounted ≠ some 121 ∧ (verify 0 id).jb.table = [] ∧ (verify 0 id).jb.orders = [] ∧
      ((verify 0 dual).jb.onPlatter 60 fun r => { r with held := true }).eligible 121 1 = false ∧
      ((after (.verifyEnd 1 true) (verify 0 id)).jb.surface 61).sealMark = 112 ∧
      ((after (.verifyEnd 1 false) (verify 2 id)).jb.surface 61).quarantine = some ⟨6, .primary, 3⟩ := by decide +kernel

/-- A read segment on drive 1 with an attempt count, with dispatch enable off. -/
def attempted (n : Nat) : State := { (working .read .sealed id) with
  settings := { Settings.cold with dispatch := false }
  jb := (working .read .sealed id).jb.onSegment ⟨0, 5, 0⟩ fun g => { g with attempts := n } }

theorem witness_DriveFaultsAreTaken : (loading.jb.drive 2).state = .loading ∧ (calm.jb.drive 2).state ≠ .loading ∧
    (emptyFault.jb.drive 0).state = .fault ∧ ((busyWith (order1 1)).jb.drive 1).state = .unloading ∧
    ((busyWith (order1 1)).jb.drive 1).ejected = false ∧ (attempted 1).jb.reachable 20 = true ∧
    (after (.driveHardwareReport 1) (attempted 1)).jb.table.map (fun q => q.segments.map (·.attempts)) = [[2]] ∧
    (after (.driveHardwareReport 1) (attempted 2)).jb.table.map (·.status) = [.mediaError] := by decide +kernel

theorem witness_DriveFaultsAreTaken_table : (attempted 1).jb.TableWf ∧ (awaits (order1 1)).jb.TableWf ∧
    (parkedRead).jb.TableWf ∧ (attempted 1).jb.OrdersWf ∧ (awaits (order1 5)).jb.OrdersWf :=
  ⟨⟨by decide +kernel, by decide +kernel, by decide +kernel⟩, ⟨by decide +kernel, by decide +kernel, by decide +kernel⟩,
    ⟨by decide +kernel, by decide +kernel, by decide +kernel⟩, ⟨by decide +kernel, by decide +kernel⟩, by decide +kernel,
    by decide +kernel⟩

theorem witness_DriveFaultsAreTaken_write :
    let s := writing ⟨.primary, 1⟩ .active id fun g => { g with htype := .retain, attempts := 1 }
    let t : State := { s with jb := { s.jb with retain := [⟨40, 1, []⟩, ⟨40, 7, []⟩] } }
    (after (.driveHardwareReport 1) t).jb.table.map (fun q => q.segments.map fun g => (g.state, g.failedVerify)) = [[(.queued, 1)]] ∧
      (after (.driveHardwareReport 1) { t with jb := t.jb.onDrive 1 fun x => { x with left := 6 } }).jb.retain.map (·.index) =
        [7] := by decide +kernel

theorem witness_DriveFaultsAreTaken_flush :
    let s : State := { flushing 0 id id with settings := { Settings.cold with dispatch := false } }
    (s.jb.lines.find? fun y => y.surface = 61).map (·.index) = some 6 ∧ (s.jb.line 61 6).map (·.due) = some (some 9) ∧
      (s.jb.surface 61).condition = .known ∧ s.jb.table = [] ∧
      (after (.driveHardwareReport 1) s).jb.flushes.map (fun f => (f.state, f.due)) = [(.queued, 9)] ∧
      (after (.driveHardwareReport 1) s).jb.lines.map (·.state) = [.filling] := by decide +kernel

theorem witness_DriveFaultsAreTaken_parked :
    let both : State := { parkedRead with jb := { parkedRead.jb with table := parkedRead.jb.table ++
      [{ express with segments := [{ segment .sealed .inService with surface := 50 }] }] } }
    (both.jb.segment ⟨1, 0, 0⟩).isSome = true ∧ both.jb.reachable 25 = true ∧ both.jb.reachable 20 = true ∧
      (after (.driveHardwareReport 1) both).jb.table.map (fun q => q.segments.map fun g => (g.state, g.attempts)) =
        [[(.queued, 1)], [(.queued, 1)]] := by decide +kernel

theorem witness_DriveFaultsAreTaken_order :
    let t (o : Order) := (after (.driveHardwareReport 1) (awaits o)).jb
    (t { order1 1 with state := .queued }).orders = [] ∧ (t (order1 3)).orders.map (·.kind) = [.returnHome] ∧
      (t (order1 4)).picker.state = .parked ∧ (t (order1 5)).orders.map (fun o => (o.step, o.outgoing)) = [(5, some 3)] ∧
      (t (order1 6)).orders.map (fun o => (o.step, o.outgoing)) = [(3, some 3)] ∧
      (t { order1 6 with state := .halted }).orders.map (·.state) = [.halted] := by decide +kernel

/-- Drive 1 unloads with the picker at a position, in step 1 of an order. -/
def unloadAt (o : Order) (x : Position) : State :=
  let s := awaits o
  { s with jb := s.jb.onPicker fun p => { p with position := some x } }

/-- Inventory unloads drive 1 with the picker there; drive 3 has a platter too. -/
def inventoryAt1 : State := calmWith fun j =>
  ((j.onDrive 1 fun x => { x with state := .unloading, platter := some 20 }).onDrive 3 fun x => { x with platter := some 25 }).onPicker
    fun p => { p with state := .inventory, inventory := some (.driveUnload 1), position := some (.drive 1) }

theorem witness_DriveFaultsAreTaken_mouth :
    (after (.spinDownComplete 1 true) (unloadAt (order1 1) (.drive 1))).jb.orders.map (·.step) = [2] ∧
      (after (.spinDownComplete 1 true) (unloadAt (order1 1) (.slot 7))).jb.orders.map (·.step) = [1] ∧
      (after (.spinDownComplete 1 true) (unloadAt { order1 1 with state := .halted } (.drive 1))).jb.orders.map (·.step) = [1] ∧
      (after (.spinDownComplete 1 true) inventoryAt1).jb.picker.inventory = some (.driveGrip 1) := by decide +kernel

theorem witness_DriveFaultsAreTaken_eject :
    let t := (after (.spinDownComplete 1 false) (unloadAt (order1 1) (.slot 7))).jb
    (t.orders = [] ∧ t.picker.state = .parked ∧ t.picker.midway = true ∧ (t.platter 2).held = true) ∧
      (unloadAt (order1 1) (.slot 7)).jb.reachable 20 = true ∧ inventoryAt1.jb.orders = [] ∧ inventoryAt1.jb.NoWork ∧
      (after (.spinDownComplete 1 false) inventoryAt1).jb.picker.inventory = some (.driveCheck 3) ∧
      (after (.spinDownComplete 1 false)
        { inventoryAt1 with jb := inventoryAt1.jb.onDrive 3 fun x => { x with reason := some .orphan } }).jb.picker.inventory =
          some (.slot 0) := by unfold Jukebox.NoWork; decide +kernel

theorem witness_EjectAttemptEnds : (ejecting.jb.drive 2).state = .fault ∧ (ejecting.jb.drive 2).ejecting = true ∧
    (ejecting.jb.drive 2).platter = some 4 ∧ ejecting.jb.orders = [] ∧ ejecting.jb.picker.inventory = none ∧
    ejecting.jb.table = [] ∧ (ejecting.jb.drive 2).clearing = false ∧ (busyWith (order1 4)).jb.picker.state ≠ .parked ∧
    (calm.jb.drive 2).ejecting = false := by decide +kernel

theorem witness_PowerOnAndLoss : calm.powered = true ∧ runs (.powerOn true true (some 95) (some 0) none none (some 3)) calm = true := by
  decide +kernel

theorem witness_BatteryLowMode :
    calm.batteryLow = false ∧ State.reset.batteryLow = true ∧
      (let w (gs : List Segment) : State := { office with batteryLow := true, jb := { calmJb with
        table := [request .write .active gs] } };
      (after .batteryGoodRise (w [segment .gather .queued])).jb.table.map (fun q => (q.state, q.status)) = [(.completing, .good)] ∧
        (after .batteryGoodRise (w [segment .gather .queued, segment .direct .inService])).jb.table.map (fun q =>
          (q.state, q.segments.map (·.state))) = [(.active, [.done, .inService])]) := by decide +kernel

end Sys2Proof.Tests
end

section
/-! What a command does outside the jukebox, and that every step keeps the stored values in their ranges (R5, R9, R10,
R15, R46, R114, R131, R135, R136, R145, R173, R174). -/

namespace Sys2Proof.Machine

/-! ## Rows that leave everything outside the jukebox alone -/

/-- A control row is its control-window command, taken by the part. -/
theorem exec_of_asCmd {c : Instr} {src : Src} {k : Cmd} (h : c.asCmd = some (src, k)) (s : State) :
    exec c s = s.take (control src k) := by
  cases c <;> cases h <;> rfl

theorem State.SameOutside.refl (s : State) : s.SameOutside s := ⟨rfl, rfl, rfl, rfl, rfl, rfl, rfl, rfl⟩

/-- A part that takes a command does to the state with an idle front bus what the command does; without power it does
nothing. -/
theorem take_cases {s t : State} {f : State → State} (h : s.take f = .next t) :
    (s.powered = true ∧ t = f s.fresh) ∨ (s.powered = false ∧ t = s) := by
  unfold State.take at h
  split at h
  · next hp => cases h; exact .inl ⟨hp, rfl⟩
  · next hp => cases h; exact .inr ⟨by simpa using hp, rfl⟩

theorem take_of_powered {s : State} (hp : s.powered = true) (f : State → State) : s.take f = .next (f s.fresh) := by
  rw [State.take, if_pos hp]
  rfl

/-- A command that leaves everything outside the jukebox alone still does so when the part takes it. -/
theorem take_sameOutside {s t : State} {f : State → State} (hf : ∀ u : State, u.SameOutside (f u))
    (h : s.take f = .next t) : s.SameOutside t := by
  obtain ⟨-, rfl⟩ | ⟨-, rfl⟩ := take_cases h
  · have hu := hf s.fresh
    exact ⟨hu.powered, hu.now, hu.batteryLow, hu.map, hu.settings, hu.control, hu.fee, hu.pending⟩
  · exact .refl _

theorem onJb_sameOutside (s : State) (f : Env → Jukebox → Jukebox) : s.SameOutside (s.onJb f) :=
  ⟨rfl, rfl, rfl, rfl, rfl, rfl, rfl, rfl⟩

/-- An event of the jukebox alone leaves everything outside it alone. -/
theorem event_sameOutside {s t : State} {f : Env → Jukebox → Jukebox} (h : s.event f = .next t) : s.SameOutside t :=
  take_sameOutside (fun u => onJb_sameOutside u f) h

theorem controlRead_sameOutside (src : Src) (b n : Nat) (s : State) : s.SameOutside (controlRead src b n s) := by
  unfold controlRead
  split <;> exact ⟨rfl, rfl, rfl, rfl, rfl, rfl, rfl, rfl⟩

/-- CONTROL_WRITE_OTHER_BLOCK sends a status at most (R167). -/
theorem execControlWriteOtherBlock_sameOutside {src : Src} {b n : Nat} {s t : State}
    (h : execControlWriteOtherBlock src b n s = .next t) : s.SameOutside t :=
  take_sameOutside (fun u => by
    cases accessRefusal .write b n with
    | none => exact .refl u
    | some st => exact ⟨rfl, rfl, rfl, rfl, rfl, rfl, rfl, rfl⟩) h

/-! ## The fee unit -/

/-- What is in its range in `f` is so in `g`, and the close record is the same. -/
structure FeeUnit.Keeps (f g : FeeUnit) : Prop where
  range : f.InRange → g.InRange
  close : g.close = f.close

theorem FeeUnit.Keeps.refl (f : FeeUnit) : f.Keeps f := ⟨id, rfl⟩

theorem FeeUnit.Keeps.trans {f g h : FeeUnit} (a : f.Keeps g) (b : g.Keeps h) : f.Keeps h :=
  ⟨b.range ∘ a.range, b.close.trans a.close⟩

/-- The two counts of requests have no range of their own here (R138). -/
theorem FeeUnit.keeps_counts (f : FeeUnit) (a p : Nat) : f.Keeps { f with activeCount := a, previousCount := p } :=
  ⟨fun h => ⟨h.active, h.previous, h.pending, h.tallies, h.sides, h.close⟩, rfl⟩

theorem FeeUnit.enter_keeps (f : FeeUnit) : f.Keeps f.enter := f.keeps_counts _ _

/-- An update moves the pending and the active tariff on (R139). -/
theorem FeeUnit.takeEffect_keeps (f : FeeUnit) : f.Keeps f.takeEffect :=
  ⟨fun h => ⟨h.pending, h.active, h.pending, h.tallies, h.sides, h.close⟩, rfl⟩

theorem FeeUnit.updateEvent_keeps (f : FeeUnit) : f.Keeps f.updateEvent := by
  unfold FeeUnit.updateEvent
  split
  · exact .refl f
  · split
    · exact f.takeEffect_keeps
    · exact ⟨fun h => ⟨h.active, h.previous, h.pending, h.tallies, h.sides, h.close⟩, rfl⟩

theorem FeeUnit.leave_keeps (f : FeeUnit) (gen : BitVec 8) : f.Keeps (f.leave gen) := by
  unfold FeeUnit.leave
  split
  · exact f.keeps_counts _ _
  · dsimp only
    split
    · exact (f.keeps_counts _ _).trans (FeeUnit.takeEffect_keeps _)
    · exact f.keeps_counts _ _

theorem FeeUnit.emptied_keeps (f : FeeUnit) : f.Keeps f.emptied := by
  unfold FeeUnit.emptied
  dsimp only
  split
  · exact (f.keeps_counts 0 0).trans (FeeUnit.takeEffect_keeps _)
  · exact f.keeps_counts 0 0

/-- What holds of every place of a table still does after one place has taken a value it holds of. -/
theorem forall_mem_setIfInBounds {α : Type} {n : Nat} {P : α → Prop} {v : Vector α n} (h : ∀ x ∈ v.toList, P x) {y : α}
    (hy : P y) (i : Nat) : ∀ x ∈ (v.setIfInBounds i y).toList, P x := by
  intro x hx
  rw [Vector.toList_setIfInBounds] at hx
  obtain hx | rfl := List.mem_or_eq_of_mem_set hx
  · exact h x hx
  · exact hy

/-- What holds of every place of a table numbered by `Fin` still does after one place has taken a value it holds of. -/
theorem forall_getElem_set {α : Type} {n : Nat} {P : α → Prop} {v : Vector α n} (h : ∀ k : Fin n, P v[k]) {y : α}
    (hy : P y) (i k : Fin n) : P (v.set i y)[k] := by
  simp only [Fin.getElem_fin, Vector.getElem_set]
  split
  · exact hy
  · exact h k

theorem satAdd_le (a b : Nat) : satAdd a b ≤ Config.maxCount := Nat.min_le_left _ _

/-- A charge leaves 32-bit values whatever it adds (R135). -/
theorem Tally.charge_inRange (fee pages : Nat) (t : Tally) : (t.charge fee pages).InRange :=
  ⟨satAdd_le _ _, satAdd_le _ _, satAdd_le _ _⟩

theorem FeeUnit.onTally_keeps {f : FeeUnit} {g : Tally → Tally} (hg : ∀ t, (g t).InRange) (i : Fin 7) (c : Nat) :
    f.Keeps (f.onTally i c g) :=
  ⟨fun h => ⟨h.active, h.previous, h.pending,
    forall_getElem_set (P := fun v : Vector Tally 7 => ∀ t ∈ v.toList, t.InRange) h.tallies
      (forall_mem_setIfInBounds (h.tallies i) (hg _) _) i, h.sides, h.close⟩, rfl⟩

theorem FeeUnit.onSides_keeps {f : FeeUnit} {g : SideCounts → SideCounts} (hg : ∀ x, x.InRange → (g x).InRange)
    (i : Fin 7) : f.Keeps (f.onSides i g) :=
  ⟨fun h => ⟨h.active, h.previous, h.pending, h.tallies,
    forall_getElem_set (P := SideCounts.InRange) h.sides (hg _ (h.sides i)) i, h.close⟩, rfl⟩

theorem FeeUnit.bill_keeps (f : FeeUnit) (q : Request) : f.Keeps (f.bill q) := by
  unfold FeeUnit.bill
  split
  · split
    · dsimp only
      refine Keeps.trans ?_ (FeeUnit.onSides_keeps (g := fun x => { x with staged := satAdd x.staged q.staged })
      (fun x h => ⟨h.1, satAdd_le _ _⟩) _)
      split
      · exact .refl f
      · exact FeeUnit.onTally_keeps (Tally.charge_inRange _ _) _ _
    · exact FeeUnit.onSides_keeps (g := fun x => { x with failed := satAdd x.failed 1 })
        (fun x h => ⟨satAdd_le _ _, h.2⟩) _
  · exact .refl f

/-! ## What a control-window command that is not refused changes -/

/-- The changes a control-window command can make outside its sender's response record: to the map, to the settings, to
the fee unit, to the control set, to the lock level, or to the jukebox alone; each leaves what it writes in its range. -/
inductive CmdMove (s : State) : State → Prop
  | map (m : VolumeMap) (j : Jukebox) (range : s.map.InRange → m.InRange) : CmdMove s { s with map := m, jb := j }
  | settings (x : Settings) (j : Jukebox) (range : s.settings.InRange → x.InRange) :
      CmdMove s { s with settings := x, jb := j }
  | fee (f : FeeUnit) (range : s.fee.InRange → f.InRange)
      (inFlight : f.close.inFlight = s.fee.close.inFlight ∨ f.close.inFlight ≤ s.jb.table.length) :
      CmdMove s { s with fee := f }
  | members (m : BitVec 7) (range : m ≠ 0) : CmdMove s { s with control := { s.control with members := m } }
  | lock (n : Nat) (range : n ≤ 3) : CmdMove s { s with control := { s.control with lock := n } }
  | jukebox (j : Jukebox) : CmdMove s { s with jb := j }

section moves
variable {s t : State} {b : Bool}

theorem runSetWindow_move {w e f x p : Byte} (h : runSetWindow w e f x p s = .ok (t, b)) : CmdMove s t := by
  unfold runSetWindow at h
  split at h
  · cases h
  · next hw =>
    cases h
    have hf : f.toNat ≤ 7 := by simp at hw; omega
    exact .map _ s.jb fun a =>
      ⟨forall_mem_setIfInBounds (P := fun x : WindowRec => x.feeClass ≤ 7) a.windows hf _, a.fixed, a.vars, a.pairs⟩

/-- A map that passes its trial takes effect. -/
theorem changeMap_move {m : VolumeMap} (h : changeMap m s = .ok (t, b)) (hm : s.map.InRange → m.InRange) : CmdMove s t := by
  unfold changeMap at h
  split at h
  · cases h
  · cases h; exact .map m _ hm

theorem runSetFixedRange_move {i ty r w : Byte} (h : runSetFixedRange i ty r w s = .ok (t, b)) : CmdMove s t := by
  unfold runSetFixedRange at h
  split at h
  · cases h
  · next hv =>
    split at h
    · cases h
    · have hg : typeOfCode ty ≠ .gather := by simp at hv; exact hv.2
      refine changeMap_move h fun a => ⟨a.windows, ?_, a.vars, a.pairs⟩
      exact forall_mem_setIfInBounds (P := fun x : FixedRange => x.htype ≠ .gather) a.fixed hg _

theorem runSetVariableRange_move {i v x y ty r w : Byte} (h : runSetVariableRange i v x y ty r w s = .ok (t, b)) :
    CmdMove s t := by
  have hmap : ∀ z : VarRange, z.InRange → s.map.InRange →
      ({ s.map with vars := s.map.vars.setIfInBounds i.toNat z } : VolumeMap).InRange :=
    fun z hz a => ⟨a.windows, a.fixed, forall_mem_setIfInBounds a.vars hz _, a.pairs⟩
  unfold runSetVariableRange at h
  split at h
  · cases h
  · split at h
    · exact changeMap_move h (hmap _ fun hv => absurd hv (by decide))
    · split at h
      · cases h
      · next hv =>
        split at h
        · cases h
        · simp only [Bool.or_eq_true, Bool.and_eq_true, decide_eq_true_eq, not_or, not_and, Nat.not_lt, Nat.not_le] at hv
          obtain ⟨⟨⟨h1, h2⟩, h3⟩, h4⟩ := hv
          exact changeMap_move h (hmap _ fun _ => ⟨h3, h2, h4⟩)

theorem runSetMapControl_move {m f ty r : Byte} (h : runSetMapControl m f ty r s = .ok (t, b)) : CmdMove s t := by
  unfold runSetMapControl at h
  exact changeMap_move h fun a => ⟨a.windows, a.fixed, a.vars, a.pairs⟩

theorem runSetMirrorPair_move {i v p m : Byte} (h : runSetMirrorPair i v p m s = .ok (t, b)) : CmdMove s t := by
  have hmap : ∀ z : MirrorPair, z.InRange →
      CmdMove s { s with map := { s.map with pairs := s.map.pairs.setIfInBounds i.toNat z } } :=
    fun z hz => .map _ s.jb fun a => ⟨a.windows, a.fixed, a.vars, forall_mem_setIfInBounds a.pairs hz _⟩
  unfold runSetMirrorPair at h
  dsimp only at h
  split at h
  · cases h
  · split at h
    · split at h
      · cases h; exact hmap _ fun hv => nomatch hv
      · cases h
    · split at h
      · cases h
      · next hs =>
        split at h
        · cases h
        · next hd =>
          split at h
          · cases h
          · split at h
            · cases h
            · cases h
              simp only [Bool.or_eq_true, decide_eq_true_eq, not_or, Nat.not_lt] at hs
              exact hmap _ fun _ => ⟨hs.1, hs.2, hd⟩

/-- A command of the fee unit alone. -/
theorem onFee_move {r : Except Reason (FeeUnit × Bool)}
    (hr : ∀ f c, r = .ok (f, c) → (s.fee.InRange → f.InRange) ∧
      (f.close.inFlight = s.fee.close.inFlight ∨ f.close.inFlight ≤ s.jb.table.length))
    (h : onFee s r = .ok (t, b)) : CmdMove s t := by
  cases r with
  | error x => cases h
  | ok fc =>
    obtain ⟨f, c⟩ := fc
    cases h
    obtain ⟨h1, h2⟩ := hr _ _ rfl
    exact .fee f h1 h2

theorem le_clamp {lo hi x : Nat} : lo ≤ clamp lo hi x := Nat.le_max_left _ _

theorem clamp_le {lo hi x : Nat} (h : lo ≤ hi) : clamp lo hi x ≤ hi := Nat.max_le.2 ⟨h, Nat.min_le_left _ _⟩

theorem runSetTariff_move {cls n g sur : Byte} {f k : BitVec 16} {c : BitVec 24}
    (h : runSetTariff cls f n g k sur c s = .ok (t, b)) : CmdMove s t := by
  refine onFee_move (fun f' c' hr => ?_) h
  have he : (storedEntry f.toNat n.toNat g.toNat k.toNat sur.toNat c.toNat).InRange :=
    ⟨by have := f.isLt; simp only [storedEntry]; omega, by have := n.isLt; simp only [storedEntry]; omega,
      ⟨le_clamp, clamp_le (by decide)⟩, by have := k.isLt; simp only [storedEntry]; omega, clamp_le (by decide),
      by have := c.isLt; simp only [storedEntry]; omega⟩
  unfold FeeUnit.setTariff at hr
  split at hr
  · cases hr
  · split at hr
    · cases hr
    · cases hr
      exact ⟨fun a => ⟨a.active, a.previous, ⟨a.pending.page, forall_mem_setIfInBounds a.pending.classes he _⟩, a.tallies,
        a.sides, a.close⟩, .inl rfl⟩

theorem runSetPageSize_move {p : Byte} (h : runSetPageSize p s = .ok (t, b)) : CmdMove s t := by
  refine onFee_move (fun f' c' hr => ?_) h
  unfold FeeUnit.setPage at hr
  split at hr
  · cases hr
  · cases hr
    exact ⟨fun a => ⟨a.active, a.previous, ⟨⟨le_clamp, clamp_le (by decide)⟩, a.pending.classes⟩, a.tallies, a.sides,
      a.close⟩, .inl rfl⟩

theorem runApplyTariff_move (h : runApplyTariff s = .ok (t, b)) : CmdMove s t := by
  refine onFee_move (fun f' c' hr => ?_) h
  unfold FeeUnit.apply at hr
  split at hr
  · cases hr
  · cases hr
    have hk := s.fee.updateEvent_keeps
    exact ⟨hk.range, .inl (by rw [hk.close])⟩

theorem zeroTallies_inRange (i : Fin 7) : ∀ t ∈ zeroTallies[i].toList, t.InRange := by
  intro t ht
  simp only [zeroTallies, Fin.getElem_fin, Vector.getElem_replicate, Vector.toList_replicate] at ht
  rw [List.eq_of_mem_replicate ht]
  exact ⟨Nat.zero_le _, Nat.zero_le _, Nat.zero_le _⟩

theorem zeroSides_inRange (i : Fin 7) : zeroSides[i].InRange := by
  simp only [zeroSides, Fin.getElem_fin, Vector.getElem_replicate]
  exact ⟨Nat.zero_le _, Nat.zero_le _⟩

/-- A close captures values of the day, which are in their ranges, and begins the next day at 0 (R146). -/
theorem FeeUnit.InRange.close1 {f : FeeUnit} (h : f.InRange) (n : Nat) : (f.close1 n).InRange :=
  ⟨h.active, h.previous, h.pending, zeroTallies_inRange, zeroSides_inRange, h.tallies, h.sides⟩

theorem runCloseDay_move {a : Byte} (h : runCloseDay a s = .ok (t, b)) : CmdMove s t := by
  refine onFee_move (fun f' c' hr => ?_) h
  have hn : s.jb.table.countP Request.inFlight ≤ s.jb.table.length := List.countP_le_length
  unfold FeeUnit.closeDay at hr
  split at hr
  · cases hr
  · cases hr
    split
    · have hk := FeeUnit.updateEvent_keeps (s.fee.close1 (s.jb.table.countP Request.inFlight))
      exact ⟨fun a => hk.range (a.close1 _), .inr (by rw [hk.close]; exact hn)⟩
    · exact ⟨fun a => a.close1 _, .inr hn⟩

theorem runAckClose_move {d : BitVec 16} (h : runAckClose d s = .ok (t, b)) : CmdMove s t := by
  refine onFee_move (fun f' c' hr => ?_) h
  unfold FeeUnit.ackClose at hr
  split at hr
  · cases hr
  · split at hr
    · cases hr
    · cases hr
      exact ⟨fun a => ⟨a.active, a.previous, a.pending, a.tallies, a.sides, a.close.tallies, a.close.sides⟩, .inl rfl⟩

theorem runSetService_move {m d ti ba p a : Byte} (hf : cmdFormatOk (.setService m d ti ba p a) = true)
    (h : runSetService m d ti ba p a s = .ok (t, b)) : CmdMove s t := by
  cases h
  refine .settings _ _ fun r => ⟨?_, ?_, r.dwell, r.lowWater, r.lineAge, r.stagingWait, r.requestLimit⟩
  · simp only [cmdFormatOk, Bool.and_eq_true, decide_eq_true_eq] at hf
    simp only [serviceSettings]
    split <;> omega
  · simp only [serviceSettings]
    split <;> omega

theorem runSetTiming_move {d l st r : BitVec 16} {w : Byte} (h : runSetTiming d w l st r s = .ok (t, b)) :
    CmdMove s t := by
  cases h
  exact .settings _ s.jb fun a => ⟨a.tier, a.back, clamp_le (by decide), clamp_le (by decide),
    ⟨le_clamp, clamp_le (by decide)⟩, ⟨le_clamp, clamp_le (by decide)⟩, clamp_le (by decide)⟩

/-- A command of the jukebox alone. -/
theorem onJukebox_move {r : Except Reason Jukebox} (h : onJukebox s r = .ok (t, b)) : CmdMove s t := by
  cases r with
  | error x => cases h
  | ok j => cases h; exact .jukebox j

theorem runClearDrive_move {d : Byte} (h : runClearDrive d s = .ok (t, b)) : CmdMove s t := by
  unfold runClearDrive at h
  split at h
  · cases h
  · exact onJukebox_move h

theorem runTakeOffline_move {d f : Byte} (h : runTakeOffline d f s = .ok (t, b)) : CmdMove s t := by
  unfold runTakeOffline at h
  split at h
  · cases h
  · exact onJukebox_move h

theorem runReleaseQuarantine_move {n a : Byte} (h : runReleaseQuarantine n a s = .ok (t, b)) : CmdMove s t := by
  unfold runReleaseQuarantine at h
  split at h
  · cases h
  · split at h
    · cases h
    · exact onJukebox_move h

theorem runRestoreSeal_move {n : Byte} {m : BitVec 24} (h : runRestoreSeal n m s = .ok (t, b)) : CmdMove s t := by
  unfold runRestoreSeal at h
  split at h
  · cases h
  · split at h
    · cases h
    · cases h; exact .jukebox _

/-- The format check lets no empty set through (R173). -/
theorem runSetControlSet_move {m : Byte} (hf : cmdFormatOk (.setControlSet m) = true)
    (h : runSetControlSet m s = .ok (t, b)) : CmdMove s t := by
  cases h
  simp only [cmdFormatOk, Bool.and_eq_true, decide_eq_true_eq] at hf
  refine .members _ fun h0 => ?_
  have := congrArg BitVec.toNat h0
  simp only [BitVec.toNat_setWidth, BitVec.ofNat_eq_ofNat, BitVec.toNat_ofNat] at this
  omega

theorem runRaiseLock_move {l : Byte} (h : runRaiseLock l s = .ok (t, b)) : CmdMove s t := by
  unfold runRaiseLock at h
  split at h
  · cases h
  · next hl =>
    cases h
    exact .lock _ (by simp at hl; omega)

/-- A command that passes its format check and is not refused makes one of the changes of `CmdMove` (R171). -/
theorem runCmd_move {k : Cmd} (hf : cmdFormatOk k = true) (h : runCmd k s = .ok (t, b)) : CmdMove s t := by
  cases k with
  | unknown code => cases h
  | setWindow => exact runSetWindow_move h
  | setFixedRange => exact runSetFixedRange_move h
  | setVariableRange => exact runSetVariableRange_move h
  | setMapControl => exact runSetMapControl_move h
  | setMirrorPair => exact runSetMirrorPair_move h
  | setTariff => exact runSetTariff_move h
  | setPageSize => exact runSetPageSize_move h
  | applyTariff => exact runApplyTariff_move h
  | closeDay => exact runCloseDay_move h
  | ackClose => exact runAckClose_move h
  | setService => exact runSetService_move hf h
  | setTiming => exact runSetTiming_move h
  | flushAll => exact onJukebox_move (show runFlushAll s = _ from h)
  | resumePicker => exact onJukebox_move (show runResumePicker s = _ from h)
  | clearDrive => exact runClearDrive_move h
  | clearPicker => exact onJukebox_move (show runClearPicker _ s = _ from h)
  | takeOffline => exact runTakeOffline_move h
  | releaseQuarantine => exact runReleaseQuarantine_move h
  | restoreSeal => exact runRestoreSeal_move h
  | setControlSet => exact runSetControlSet_move hf h
  | raiseLock => exact runRaiseLock_move h

end moves

/-! ## Control-window commands -/

/-- What a command has passed that is not refused (R171). -/
theorem tryCmd_ok {i : Fin 7} {k : Cmd} {s : State} {x : State × Bool} (h : tryCmd i k s = .ok x) :
    cmdUnknown k = false ∧ s.permits i = true ∧ s.frozen k = false ∧ cmdFormatOk k = true ∧ runCmd k s = .ok x := by
  unfold tryCmd at h
  split at h
  · cases h
  · next h1 =>
    split at h
    · cases h
    · next h2 =>
      split at h
      · cases h
      · next h3 =>
        split at h
        · cases h
        · next h4 => simp only [Bool.not_eq_true, Bool.not_eq_false'] at h1 h2 h3 h4; exact ⟨h1, h2, h3, h4, h⟩

/-- A control-window command is refused, or makes one change and is answered (R169, R171). -/
theorem control_cases (src : Src) (k : Cmd) (s : State) :
    (∃ r, control src k s = (s.fetchRecord src).respond src (cmdCode k) .refused r) ∨
    ∃ t o, CmdMove (s.fetchRecord src) t ∧ control src k s = t.respond src (cmdCode k) o .none := by
  unfold control
  dsimp only
  split
  · next r _ => exact .inl ⟨r, rfl⟩
  · next h =>
    obtain ⟨-, -, -, hf, hr⟩ := tryCmd_ok h
    exact .inr ⟨_, _, runCmd_move hf hr, rfl⟩

theorem CmdMove.batteryLow {s t : State} (h : CmdMove s t) : t.batteryLow = s.batteryLow := by
  cases h <;> rfl

/-- No control-window command changes battery-low mode (R192). -/
theorem control_batteryLow (src : Src) (k : Cmd) (s : State) : (control src k s).batteryLow = s.batteryLow := by
  obtain ⟨r, h⟩ | ⟨t, o, hm, h⟩ := control_cases src k s
  · rw [h]; rfl
  · rw [h]; exact hm.batteryLow

theorem controlWrite_cases (src : Src) (b n : Nat) (data : List Block) (s : State) :
    s.SameOutside (controlWrite src b n data s) ∨ ∃ k, controlWrite src b n data s = control src k s := by
  unfold controlWrite
  split
  · exact .inl ⟨rfl, rfl, rfl, rfl, rfl, rfl, rfl, rfl⟩
  · exact .inr ⟨_, rfl⟩

/-! ## READ, WRITE and the sends of statuses -/

/-- Outside the jukebox `t` differs from `s` in the fee unit only. -/
def State.SameButFee (s t : State) : Prop := s.SameOutside { t with fee := s.fee }

theorem State.SameOutside.sameButFee {s t : State} (h : s.SameOutside t) : s.SameButFee t :=
  ⟨h.powered, h.now, h.batteryLow, h.map, h.settings, h.control, rfl, h.pending⟩

theorem accept_sameButFee (src : Src) (k : Kind) (lba n : Nat) (data : List Block) (s : State) :
    s.SameButFee (accept src k lba n data s) := by
  unfold accept
  split <;> exact ⟨rfl, rfl, rfl, rfl, rfl, rfl, rfl, rfl⟩

theorem accept_fee (src : Src) (k : Kind) (lba n : Nat) (data : List Block) (s : State) :
    s.fee.Keeps (accept src k lba n data s).fee := by
  unfold accept
  split
  · exact .refl _
  · exact s.fee.enter_keeps

/-- A READ does to the state with an idle front bus a control-window read or an acceptance (R24). -/
theorem execRead_cases {src : Src} {lba n : Nat} {s t : State} (h : execRead src lba n s = .next t) :
    s.SameOutside t ∨ t = accept src .read lba n [] s.fresh := by
  obtain ⟨-, rfl⟩ | ⟨-, rfl⟩ := take_cases h
  · split
    · have hc := controlRead_sameOutside src (archiveBlock lba) n s.fresh
      exact .inl ⟨hc.powered, hc.now, hc.batteryLow, hc.map, hc.settings, hc.control, hc.fee, hc.pending⟩
    · exact .inr rfl
  · exact .inl (.refl _)

/-- A WRITE does to the state with an idle front bus an acceptance, or a control-window command if it is one of window 7 (R1,
R24, R169). -/
theorem execWrite_cases {src : Src} {lba n : Nat} {data : List Block} {s t : State}
    (h : execWrite src lba n data s = .next t) :
    s.SameOutside t ∨ (lba / 67108864 = 7 ∧ ∃ k, t = control src k s.fresh) ∨
      t = accept src .write lba n data s.fresh := by
  obtain ⟨-, rfl⟩ | ⟨-, rfl⟩ := take_cases h
  · split
    · next hw =>
      obtain hc | ⟨k, hk⟩ := controlWrite_cases src (archiveBlock lba) n data s.fresh
      · exact .inl ⟨hc.powered, hc.now, hc.batteryLow, hc.map, hc.settings, hc.control, hc.fee, hc.pending⟩
      · exact .inr (.inl ⟨hw, k, hk⟩)
    · exact .inr (.inr rfl)
  · exact .inl (.refl _)

/-- STATUS_SEND changes nothing, or takes one request off the table and the fee unit's books (R38). -/
theorem execStatusSend_cases {i : Fin 7} {g : Fin 8} {s t : State} (h : execStatusSend i g s = .next t) :
    s.SameOutside t ∨ ∃ q, t = { s.fresh with fee := (s.fee.bill q).leave q.generation, jb := sendStatus q s.fresh.jb } := by
  obtain ⟨-, rfl⟩ | ⟨-, rfl⟩ := take_cases h
  · split
    · next q _ =>
      split
      · exact .inr ⟨q, rfl⟩
      · exact .inl ⟨rfl, rfl, rfl, rfl, rfl, rfl, rfl, rfl⟩
    · exact .inl ⟨rfl, rfl, rfl, rfl, rfl, rfl, rfl, rfl⟩
  · exact .inl (.refl _)

/-- FRONT_BUS_RESET touches the fee unit and the jukebox (R42, R141). -/
theorem execFrontBusReset_frame {s t : State} (h : execFrontBusReset s = .next t) :
    s.SameButFee t ∧ s.fee.Keeps t.fee := by
  obtain ⟨-, rfl⟩ | ⟨-, rfl⟩ := take_cases h
  · exact ⟨⟨rfl, rfl, rfl, rfl, rfl, rfl, rfl, rfl⟩, s.fee.emptied_keeps⟩
  · exact ⟨(State.SameOutside.refl _).sameButFee, .refl _⟩

/-- The battery-good input touches battery-low mode and the jukebox alone (R126, R127). -/
theorem batteryFalls_frame (s : State) :
    (batteryFalls s).map = s.map ∧ (batteryFalls s).settings = s.settings ∧ (batteryFalls s).control = s.control ∧
      (batteryFalls s).fee = s.fee := by
  unfold batteryFalls
  split <;> exact ⟨rfl, rfl, rfl, rfl⟩

theorem batteryRises_frame (s : State) :
    (batteryRises s).map = s.map ∧ (batteryRises s).settings = s.settings ∧ (batteryRises s).control = s.control ∧
      (batteryRises s).fee = s.fee := by
  unfold batteryRises
  split <;> exact ⟨rfl, rfl, rfl, rfl⟩

/-- The map, the settings, the control unit, the fee unit and battery-low mode are the same. -/
theorem State.SameOutside.configuration {s t : State} (h : s.SameOutside t) :
    (t.map = s.map ∧ t.settings = s.settings ∧ t.control = s.control) ∧ t.fee = s.fee ∧ t.batteryLow = s.batteryLow :=
  ⟨⟨h.map, h.settings, h.control⟩, h.fee, h.batteryLow⟩

/-! ## The stored values -/

/-- What is in its range in `s` is so in `t`, and the in-flight count of the close record is the one of `s` or a count of
requests `s` holds. -/
structure State.Keeps (s t : State) : Prop where
  range : s.InRange → t.InRange
  inFlight : t.fee.close.inFlight = s.fee.close.inFlight ∨ t.fee.close.inFlight ≤ s.jb.table.length

/-- A change that leaves the map, the settings and the control unit as they were. -/
theorem State.keeps_of_eq {s t : State} (hm : t.map = s.map) (hs : t.settings = s.settings) (hc : t.control = s.control)
    (hf : s.fee.Keeps t.fee) : s.Keeps t := by
  refine ⟨fun a => ⟨?_, ?_, hf.range a.fee, ?_, ?_⟩, .inl (by rw [hf.close])⟩
  · rw [hm]; exact a.map
  · rw [hs]; exact a.settings
  · rw [hc]; exact a.members
  · rw [hc]; exact a.lock

theorem State.SameButFee.keeps {s t : State} (h : s.SameButFee t) (hf : s.fee.Keeps t.fee) : s.Keeps t :=
  State.keeps_of_eq h.map h.settings h.control hf

theorem State.SameOutside.keeps {s t : State} (h : s.SameOutside t) : s.Keeps t :=
  h.sameButFee.keeps (h.fee ▸ .refl _)

/-- The state with an idle front bus stores what the state stores. -/
theorem State.Keeps.of_fresh {s t : State} (h : s.fresh.Keeps t) : s.Keeps t :=
  ⟨fun a => h.range ⟨a.map, a.settings, a.fee, a.members, a.lock⟩, h.inFlight⟩

theorem batteryFalls_keeps (s : State) : s.Keeps (batteryFalls s) := by
  obtain ⟨hm, hs, hc, hf⟩ := batteryFalls_frame s
  exact State.keeps_of_eq hm hs hc (hf ▸ .refl _)

theorem batteryRises_keeps (s : State) : s.Keeps (batteryRises s) := by
  obtain ⟨hm, hs, hc, hf⟩ := batteryRises_frame s
  exact State.keeps_of_eq hm hs hc (hf ▸ .refl _)

theorem take_keeps {s t : State} {f : State → State} (hf : ∀ u : State, u.Keeps (f u)) (h : s.take f = .next t) :
    s.Keeps t := by
  obtain ⟨-, rfl⟩ | ⟨-, rfl⟩ := take_cases h
  · exact (hf s.fresh).of_fresh
  · exact (State.SameOutside.refl _).keeps

theorem CmdMove.keeps {s t : State} (h : CmdMove s t) : s.Keeps t := by
  cases h with
  | map m j hm => exact ⟨fun a => ⟨hm a.map, a.settings, a.fee, a.members, a.lock⟩, .inl rfl⟩
  | settings x j hx => exact ⟨fun a => ⟨a.map, hx a.settings, a.fee, a.members, a.lock⟩, .inl rfl⟩
  | fee f hf hn => exact ⟨fun a => ⟨a.map, a.settings, hf a.fee, a.members, a.lock⟩, hn⟩
  | members m hm => exact ⟨fun a => ⟨a.map, a.settings, a.fee, hm, a.lock⟩, .inl rfl⟩
  | lock n hn => exact ⟨fun a => ⟨a.map, a.settings, a.fee, a.members, hn⟩, .inl rfl⟩
  | jukebox j => exact ⟨fun a => ⟨a.map, a.settings, a.fee, a.members, a.lock⟩, .inl rfl⟩

theorem control_keeps (src : Src) (k : Cmd) (s : State) : s.Keeps (control src k s) := by
  obtain ⟨r, h⟩ | ⟨t, o, hm, h⟩ := control_cases src k s
  · rw [h]
    exact ⟨fun a => ⟨a.map, a.settings, a.fee, a.members, a.lock⟩, .inl rfl⟩
  · rw [h]
    have hk := hm.keeps
    exact ⟨fun a => have b := hk.range ⟨a.map, a.settings, a.fee, a.members, a.lock⟩
      ⟨b.map, b.settings, b.fee, b.members, b.lock⟩, hk.inFlight⟩

/-! ## Power -/

theorem volumeMapCold_inRange : VolumeMap.cold.InRange where
  windows := by decide
  fixed := by decide
  vars := fun r hr hv => by
    rw [List.eq_of_mem_replicate (Vector.toList_replicate ▸ hr : r ∈ List.replicate 16 _)] at hv; cases hv
  pairs := fun p hp hv => by
    rw [List.eq_of_mem_replicate (Vector.toList_replicate ▸ hp : p ∈ List.replicate 16 _)] at hv; cases hv

theorem settingsCold_inRange : Settings.cold.InRange := by
  constructor <;> decide

theorem tariffCold_inRange : Tariff.cold.InRange where
  page := by decide
  classes := fun c hc => by
    rw [List.eq_of_mem_replicate (Vector.toList_replicate ▸ hc : c ∈ List.replicate 7 _)]
    constructor <;> decide

theorem feeUnitCold_inRange : FeeUnit.cold.InRange :=
  ⟨tariffCold_inRange, tariffCold_inRange, tariffCold_inRange, zeroTallies_inRange, zeroSides_inRange,
    zeroTallies_inRange, zeroSides_inRange⟩

/-- The store is in its ranges after a cold start, whatever it was before (R187). -/
theorem coldStore_inRange (s : State) : (coldStore s).InRange :=
  ⟨volumeMapCold_inRange, settingsCold_inRange, feeUnitCold_inRange, (by decide : (1 : BitVec 7) ≠ 0), Nat.zero_le 3⟩

theorem losePower_keeps (s : State) : s.Keeps (losePower s) := by
  have hf := s.fee.keeps_counts 0 0
  exact ⟨fun a => ⟨a.map, a.settings, hf.range a.fee, a.members, Nat.zero_le 3⟩, .inl rfl⟩

/-- A power-on keeps the store, or starts it cold where the battery-good input is off (R185, R187). -/
theorem applyPower_keeps (good isOpen : Bool) (g d0 d1 d2 d3 : Option Nat) (s : State) :
    s.Keeps (applyPower good isOpen g d0 d1 d2 d3 s) := by
  unfold applyPower
  dsimp only
  cases good with
  | true =>
    have hf := s.fee.emptied_keeps
    exact ⟨fun a => ⟨a.map, a.settings, hf.range a.fee, a.members, Nat.zero_le 3⟩,
      .inl (congrArg CloseRecord.inFlight hf.close)⟩
  | false =>
    have hf := FeeUnit.cold.emptied_keeps
    have hc := coldStore_inRange s
    exact ⟨fun _ => ⟨hc.map, hc.settings, hf.range hc.fee, hc.members, Nat.zero_le 3⟩, .inr (Nat.zero_le _)⟩

/-! ## Every step -/

/-- Every command keeps the stored values in their ranges. -/
theorem exec_keeps {c : Instr} {s t : State} (h : exec c s = .next t) : s.Keeps t := by
  cases hc : c.asCmd with
  | some x => exact take_keeps (control_keeps x.1 x.2) (exec_of_asCmd hc s ▸ h)
  | none =>
    cases c with
    | read src lba n =>
      obtain hs | rfl := execRead_cases h
      · exact hs.keeps
      · exact ((accept_sameButFee ..).keeps (accept_fee ..)).of_fresh
    | write src lba n data =>
      obtain hs | ⟨-, k, rfl⟩ | rfl := execWrite_cases h
      · exact hs.keeps
      · exact (control_keeps ..).of_fresh
      · exact ((accept_sameButFee ..).keeps (accept_fee ..)).of_fresh
    | controlWindowRead src b n => exact (take_sameOutside (controlRead_sameOutside src b n) h).keeps
    | controlWriteOtherBlock => exact (execControlWriteOtherBlock_sameOutside h).keeps
    | frontBusReset =>
      obtain ⟨hs, hf⟩ := execFrontBusReset_frame h
      exact hs.keeps hf
    | statusSend =>
      obtain hs | ⟨q, rfl⟩ := execStatusSend_cases h
      · exact hs.keeps
      · exact State.SameButFee.keeps ⟨rfl, rfl, rfl, rfl, rfl, rfl, rfl, rfl⟩
          ((s.fee.bill_keeps q).trans (FeeUnit.leave_keeps _ _))
    | batteryGoodFall =>
      exact take_keeps batteryFalls_keeps h
    | batteryGoodRise =>
      exact take_keeps batteryRises_keeps h
    | powerLoss => exact take_keeps losePower_keeps h
    | powerOn good isOpen g d0 d1 d2 d3 =>
      cases h
      have h1 := losePower_keeps s
      have h2 := applyPower_keeps good isOpen g d0 d1 d2 d3 (losePower s)
      refine ⟨h2.range ∘ h1.range, ?_⟩
      exact h2.inFlight.imp (·.trans rfl) fun h => h.trans (Nat.zero_le _)
    | _ => first | exact (event_sameOutside h).keeps | cases hc

/-- Every step keeps the stored values in their ranges: a tick touches none of them. -/
theorem step_keeps {s t : State} (h : step s = .next t) : s.Keeps t := by
  unfold step at h
  split at h
  · cases h
    unfold tick
    split
    · exact ⟨fun a => ⟨a.map, a.settings, a.fee, a.members, a.lock⟩, .inl rfl⟩
    · exact (State.SameOutside.refl s).keeps
  · have hk := exec_keeps h
    exact ⟨fun a => hk.range ⟨a.map, a.settings, a.fee, a.members, a.lock⟩, hk.inFlight⟩

/-- Settles O4: every command makes one of a few changes outside the jukebox, each of which keeps the ranges. -/
theorem stepKeepsStoredValuesInRange : Obligations.StepKeepsStoredValuesInRange := by
  refine ⟨fun s t hs h => (step_keeps h).range hs, fun s t hw hn h => ?_⟩
  obtain hk | hk := (step_keeps h).inFlight
  · rw [hk]; exact hn
  · exact hk.trans hw.size

/-- Settles O8: what is not a control row, a write of window 7 or a power event is an event of the jukebox alone, or
touches the fee unit or battery-low mode besides. -/
theorem eventsLeaveConfigurationAlone : Obligations.EventsLeaveConfigurationAlone := by
  intro c s t hc h
  cases c with
  | read src lba n =>
    obtain hs | rfl := execRead_cases h
    · exact ⟨⟨hs.map, hs.settings, hs.control⟩, trivial, hs.batteryLow⟩
    · have ha := accept_sameButFee src .read lba n [] s.fresh
      exact ⟨⟨ha.map, ha.settings, ha.control⟩, trivial, ha.batteryLow⟩
  | write src lba n data =>
    obtain hs | ⟨hw, k, rfl⟩ | rfl := execWrite_cases h
    · exact ⟨.inr ⟨hs.map, hs.settings, hs.control⟩, trivial, hs.batteryLow⟩
    · exact ⟨.inl hw, trivial, control_batteryLow ..⟩
    · have ha := accept_sameButFee src .write lba n data s.fresh
      exact ⟨.inr ⟨ha.map, ha.settings, ha.control⟩, trivial, ha.batteryLow⟩
  | controlWindowRead src b n =>
    exact (take_sameOutside (controlRead_sameOutside src b n) h).configuration
  | controlWriteOtherBlock =>
    exact (execControlWriteOtherBlock_sameOutside h).configuration
  | frontBusReset =>
    obtain ⟨hs, -⟩ := execFrontBusReset_frame h
    exact ⟨⟨hs.map, hs.settings, hs.control⟩, trivial, hs.batteryLow⟩
  | statusSend =>
    obtain hs | ⟨q, rfl⟩ := execStatusSend_cases h
    · exact ⟨⟨hs.map, hs.settings, hs.control⟩, trivial, hs.batteryLow⟩
    · exact ⟨⟨rfl, rfl, rfl⟩, trivial, rfl⟩
  | batteryGoodFall =>
    obtain ⟨-, rfl⟩ | ⟨-, rfl⟩ := take_cases h
    · obtain ⟨hm, hs, hc, hf⟩ := batteryFalls_frame s.fresh
      exact ⟨⟨hm, hs, hc⟩, hf, trivial⟩
    · exact ⟨⟨rfl, rfl, rfl⟩, rfl, trivial⟩
  | batteryGoodRise =>
    obtain ⟨-, rfl⟩ | ⟨-, rfl⟩ := take_cases h
    · obtain ⟨hm, hs, hc, hf⟩ := batteryRises_frame s.fresh
      exact ⟨⟨hm, hs, hc⟩, hf, trivial⟩
    · exact ⟨⟨rfl, rfl, rfl⟩, rfl, trivial⟩
  | powerOn => exact ⟨trivial, trivial, trivial⟩
  | powerLoss =>
    obtain ⟨-, rfl⟩ | ⟨-, rfl⟩ := take_cases h
    · exact ⟨⟨rfl, rfl, rfl⟩, trivial, trivial⟩
    · exact ⟨⟨rfl, rfl, rfl⟩, trivial, trivial⟩
  | _ =>
    first
    | exact (event_sameOutside h).configuration
    | cases hc

end Sys2Proof.Machine
end

section
/-! The commands of the volume map: the tests of R171, and what each leaves (R5, R9 to R18, R20). -/

namespace Sys2Proof.Machine

/-! ## The answer of a control row -/

/-- The state a command that passes checks 1 to 4 of R171 leaves: refused by its own checks, or answered. -/
def State.ran (s : State) (src : Src) (k : Cmd) : State :=
  match runCmd k (s.fresh.fetchRecord src) with
  | .error r => s.answered src (cmdCode k) .refused r
  | .ok (t, clamped) => t.respond src (cmdCode k) (if clamped then .clamped else .done) .none

theorem frozen_iff (s : State) (k : Cmd) : s.frozen k = true ↔ ∃ l ∈ cmdFrozenFrom k, l ≤ s.control.lock := by
  cases h : cmdFrozenFrom k <;> simp [State.frozen, h]

/-- A control-window command of the table whose fields pass the format checks is refused by check 2 or 3, or runs (R171). -/
theorem control_eq_gated {k : Cmd} (hk : cmdUnknown k = false) (hf : cmdFormatOk k = true) (s : State) (src : Src) :
    control src k s.fresh = s.gated src (cmdCode k) (cmdFrozenFrom k) (s.ran src k) := by
  unfold control tryCmd State.gated
  have hp : (s.fresh.fetchRecord src).permits src.initiator = s.control.members.getLsbD src.initiator := rfl
  have hz : (s.fresh.fetchRecord src).frozen k = true ↔ ∃ l ∈ cmdFrozenFrom k, l ≤ s.control.lock :=
    frozen_iff (s.fresh.fetchRecord src) k
  simp only [hk, hf, hp, Bool.false_eq_true, Bool.not_true, if_false, Bool.not_eq_true']
  by_cases h1 : s.control.members.getLsbD src.initiator = false
  · rw [if_pos h1, if_pos h1]; rfl
  · rw [if_neg h1, if_neg h1]
    by_cases h2 : (s.fresh.fetchRecord src).frozen k = true
    · rw [if_pos h2, if_pos (hz.1 h2)]; rfl
    · rw [if_neg h2, if_neg (mt hz.2 h2)]
      unfold State.ran
      cases runCmd k (s.fresh.fetchRecord src) <;> rfl

/-- A control row of a command of the table whose fields pass the format checks, given to a part with power. -/
theorem exec_eq_gated {c : Instr} {src : Src} {k : Cmd} (hc : c.asCmd = some (src, k)) (hk : cmdUnknown k = false)
    (hf : cmdFormatOk k = true) {s : State} (hp : s.powered = true) :
    exec c s = .next (s.gated src (cmdCode k) (cmdFrozenFrom k) (s.ran src k)) := by
  rw [exec_of_asCmd hc, take_of_powered hp, control_eq_gated hk hf]

theorem ran_of_error {s : State} {src : Src} {k : Cmd} {r : Reason}
    (h : runCmd k (s.fresh.fetchRecord src) = .error r) : s.ran src k = s.answered src (cmdCode k) .refused r := by
  unfold State.ran; rw [h]

/-- A command that replaces the map alone. -/
theorem ran_of_map {s : State} {src : Src} {k : Cmd} {m : VolumeMap}
    (h : runCmd k (s.fresh.fetchRecord src) = .ok ({ s.fresh.fetchRecord src with map := m }, false)) :
    s.ran src k = ({ s with map := m } : State).answered src (cmdCode k) .done .none := by
  unfold State.ran; rw [h]; rfl

/-! ## Codes -/

@[simp] theorem flag_yesNo (b : Bool) : flag (yesNo b) = b := by cases b <;> rfl
@[simp] theorem isFlag_one : isFlag 1#8 = true := rfl
@[simp] theorem isFlag_yesNo (b : Bool) : isFlag (yesNo b) = true := by cases b <;> rfl
@[simp] theorem typeOfCode_typeByte (t : HType) : typeOfCode (typeByte t) = t := by cases t <;> rfl
@[simp] theorem isType_typeByte (t : HType) : isType (typeByte t) = true := by cases t <;> rfl
@[simp] theorem sideOfCode_sideByte (r : Side) : sideOfCode (sideByte r) = r := by cases r <;> rfl
@[simp] theorem isFlag_sideByte (r : Side) : isFlag (sideByte r) = true := by cases r <;> rfl
@[simp] theorem routeOfCode_routeByte (w : WriteRoute) : routeOfCode (routeByte w) = w := by cases w <;> rfl
@[simp] theorem isFlag_routeByte (w : WriteRoute) : isFlag (routeByte w) = true := by cases w <;> rfl

/-- A route other than PRIMARY needs routing enable (R12). -/
theorem routeRefused_iff (s : State) (r : Side) (w : WriteRoute) :
    routeRefused s (sideByte r) (routeByte w) = true ↔ (r = .mirror ∨ w = .dual) ∧ s.map.control.routing = false := by
  cases r <;> cases w <;> simp [routeRefused, sideByte, routeByte]

/-! ## The trial of a map change (R17, R18, R20) -/

theorem isMirror_iff (m : VolumeMap) (n : Nat) :
    m.isMirror n = true ↔ ∃ p ∈ m.pairs.toList, p.valid = true ∧ p.mirror = n := by
  simp only [VolumeMap.isMirror, List.any_eq_true, Bool.and_eq_true, decide_eq_true_eq]

theorem trial_eq (m m' : VolumeMap) (j : Jukebox) :
    trial m m' j =
      if ∃ u ∈ mapUnits, (m.resolve u.1 u.2).htype ≠ (m'.resolve u.1 u.2).htype ∧ j.busyForMap u.1 = true then
        some .busySurface
      else if ∃ u ∈ mapUnits, (m.resolve u.1 u.2).htype = .sealed ∧ (m'.resolve u.1 u.2).htype ≠ .sealed ∧
          ∃ p ∈ m.pairs.toList, p.valid = true ∧ p.mirror = u.1 then some .paired
      else none := by
  have hpaired : ∀ u : Nat × Nat,
      ((m.resolve u.1 u.2).htype ≠ (m'.resolve u.1 u.2).htype ∧ (m.resolve u.1 u.2).htype = .sealed ∧
        m.isMirror u.1 = true) ↔
      ((m.resolve u.1 u.2).htype = .sealed ∧ (m'.resolve u.1 u.2).htype ≠ .sealed ∧
        ∃ p ∈ m.pairs.toList, p.valid = true ∧ p.mirror = u.1) := by
    intro u
    rw [isMirror_iff]
    constructor
    · rintro ⟨h1, h2, h3⟩; exact ⟨h2, fun h => h1 (h2.trans h.symm), h3⟩
    · rintro ⟨h1, h2, h3⟩; exact ⟨fun h => h2 (h.symm.trans h1), h1, h3⟩
  unfold trial
  simp only [List.any_filter, List.any_eq_true, Bool.and_eq_true, bne_iff_ne, decide_eq_true_eq, hpaired]

theorem changeMap_of_trial_some {s : State} {m : VolumeMap} {r : Reason} (h : trial s.map m s.jb = some r) :
    changeMap m s = .error r := by
  rw [changeMap, h]

theorem changeMap_of_trial_none {s : State} {m : VolumeMap} (h : trial s.map m s.jb = none) :
    changeMap m s =
      .ok ({ s with map := m, jb := { s.jb with retain := retainAfterMap s.map m s.jb.retain } }, false) := by
  rw [changeMap, h]

/-- A command whose own checks leave only the trial of a map. -/
theorem ran_of_changeMap {s : State} {src : Src} {k : Cmd} {m : VolumeMap}
    (h : runCmd k (s.fresh.fetchRecord src) = changeMap m (s.fresh.fetchRecord src)) :
    s.ran src k = s.mapTried src (cmdCode k) m := by
  have ht := trial_eq s.map m (s.fresh.fetchRecord src).jb
  unfold State.mapTried
  split
  · next hb => exact ran_of_error (h.trans (changeMap_of_trial_some (ht.trans (if_pos hb))))
  · next hb =>
    split
    · next hq => exact ran_of_error (h.trans (changeMap_of_trial_some (ht.trans ((if_neg hb).trans (if_pos hq)))))
    · next hq =>
      have hn := changeMap_of_trial_none (s := s.fresh.fetchRecord src) (ht.trans ((if_neg hb).trans (if_neg hq)))
      unfold State.ran
      rw [h, hn]
      simp only [retainAfterMap, Config.lineBlocks, Nat.mul_comm _ 16]
      rfl

/-- What a map command does with a range of `htype`, `r` and `w` at a place it may name: the routes are tested, then the map is
tried (R12, R17). -/
theorem ran_of_routes {s : State} {src : Src} {k : Cmd} {m : VolumeMap} {r : Side} {w : WriteRoute}
    (h : runCmd k (s.fresh.fetchRecord src) =
      if routeRefused (s.fresh.fetchRecord src) (sideByte r) (routeByte w) then .error .state
      else changeMap m (s.fresh.fetchRecord src)) :
    s.ran src k = if (r = .mirror ∨ w = .dual) ∧ s.map.control.routing = false then
      s.answered src (cmdCode k) .refused .state else s.mapTried src (cmdCode k) m := by
  have hr : routeRefused (s.fresh.fetchRecord src) (sideByte r) (routeByte w) = true ↔
      (r = .mirror ∨ w = .dual) ∧ s.map.control.routing = false := routeRefused_iff _ r w
  split
  · next hb => exact ran_of_error (h.trans (if_pos (hr.2 hb)))
  · next hb => exact ran_of_changeMap (h.trans (if_neg (mt hr.1 hb)))

/-- A place of a table that is in it, written. -/
theorem setIfInBounds_of_lt {α : Type} {n i : Nat} (v : Vector α n) (x : α) (h : i < n) :
    v.setIfInBounds i x = v.set i x h := by
  apply Vector.ext
  intro k hk
  rw [Vector.getElem_setIfInBounds, Vector.getElem_set]

/-! ## The commands -/

/-- Settles O13: past the gate the two tests of R5 decide, and the record is written. -/
theorem setWindowReplacesTheRecord : Obligations.SetWindowReplacesTheRecord := by
  intro s src w f e x p hp
  rw [exec_eq_gated (k := .setWindow w (yesNo e) f (yesNo x) (yesNo p)) rfl rfl (by simp [cmdFormatOk]) hp]
  congr 2
  by_cases h : w.toNat < 7 ∧ f.toNat ≤ 7
  · rw [dif_pos h]
    refine ran_of_map ?_
    have hb : ¬ (7 ≤ w.toNat ∨ 7 < f.toNat) := by omega
    simp only [runCmd, runSetWindow, Bool.or_eq_true, decide_eq_true_eq, if_neg hb, flag_yesNo, setIfInBounds_of_lt _ _ h.1]
    rfl
  · rw [dif_neg h]
    refine ran_of_error ?_
    have hb : 7 ≤ w.toNat ∨ 7 < f.toNat := by omega
    simp only [runCmd, runSetWindow, Bool.or_eq_true, decide_eq_true_eq, if_pos hb]

/-- Settles O14: past the gate the place and type are tested, then the routes, then the map is tried. -/
theorem setFixedRangeTriesTheMap : Obligations.SetFixedRangeTriesTheMap := by
  intro s src i ty r w hp
  rw [exec_eq_gated (k := .setFixedRange i (typeByte ty) (sideByte r) (routeByte w)) rfl rfl (by simp [cmdFormatOk]) hp]
  congr 2
  by_cases h : i.toNat < 32 ∧ ty ≠ .gather
  · rw [dif_pos h]
    refine ran_of_routes ?_
    have hb : ¬ (31 < i.toNat ∨ ty = .gather) := fun hc => hc.elim (by omega) h.2
    simp only [runCmd, runSetFixedRange, Bool.or_eq_true, decide_eq_true_eq, typeOfCode_typeByte, if_neg hb,
      sideOfCode_sideByte, routeOfCode_routeByte, setIfInBounds_of_lt _ _ h.1]
    rfl
  · rw [dif_neg h]
    refine ran_of_error ?_
    have hb : 31 < i.toNat ∨ ty = .gather := by
      by_contra hc; push Not at hc; exact h ⟨by omega, hc.2⟩
    simp only [runCmd, runSetFixedRange, Bool.or_eq_true, decide_eq_true_eq, typeOfCode_typeByte, if_pos hb]

/-- Settles O15: with valid set as O14; with valid clear only the place is tested before the map is tried. -/
theorem setVariableRangeTriesTheMap : Obligations.SetVariableRangeTriesTheMap := by
  intro s src i a b hp
  refine ⟨fun ty r w => ?_, fun ty r w => ?_⟩
  · rw [exec_eq_gated (k := .setVariableRange i 1 a b (typeByte ty) (sideByte r) (routeByte w)) rfl rfl
      (by simp [cmdFormatOk]) hp]
    congr 2
    by_cases h : i.toNat < 16 ∧ a.toNat ≤ b.toNat ∧ b.toNat ≤ 191 ∧ ¬ (ty = .gather ∧ a.toNat ≤ 1)
    · rw [dif_pos h]
      obtain ⟨h1, h2, h3, h4⟩ := h
      refine ran_of_routes ?_
      have hb : ¬ (((191 < a.toNat ∨ 191 < b.toNat) ∨ b.toNat < a.toNat) ∨ ty = .gather ∧ a.toNat ≤ 1) := by
        rintro (hc | hc)
        · omega
        · exact h4 hc
      simp only [runCmd, runSetVariableRange, Bool.or_eq_true, Bool.and_eq_true, decide_eq_true_eq, typeOfCode_typeByte,
        if_neg hb, if_neg (show ¬ 15 < i.toNat by omega), if_neg (show ¬ (1 : Byte) = 0 by decide),
        sideOfCode_sideByte, routeOfCode_routeByte, setIfInBounds_of_lt _ _ h1]
      rfl
    · rw [dif_neg h]
      refine ran_of_error ?_
      by_cases hi : 15 < i.toNat
      · simp only [runCmd, runSetVariableRange, if_pos hi]
      · have hb : ((191 < a.toNat ∨ 191 < b.toNat) ∨ b.toNat < a.toNat) ∨ ty = .gather ∧ a.toNat ≤ 1 := by
          by_contra hc
          rw [not_or] at hc
          exact h ⟨by omega, by omega, by omega, hc.2⟩
        simp only [runCmd, runSetVariableRange, Bool.or_eq_true, Bool.and_eq_true, decide_eq_true_eq, typeOfCode_typeByte,
          if_pos hb, if_neg hi, if_neg (show ¬ (1 : Byte) = 0 by decide)]
  · rw [exec_eq_gated (k := .setVariableRange i 0 a b ty r w) rfl rfl (by simp [cmdFormatOk, isFlag]) hp]
    congr 2
    by_cases h : i.toNat < 16
    · rw [dif_pos h]
      refine ran_of_changeMap ?_
      simp only [runCmd, runSetVariableRange, if_neg (show ¬ 15 < i.toNat by omega), if_true, setIfInBounds_of_lt _ _ h]
      rfl
    · rw [dif_neg h]
      refine ran_of_error ?_
      simp only [runCmd, runSetVariableRange, if_pos (show 15 < i.toNat by omega)]

/-- Settles O16: past the gate nothing but the trial of the map is left. -/
theorem setMapControlTriesTheMap : Obligations.SetMapControlTriesTheMap := by
  intro s src m f r ty hp
  rw [exec_eq_gated (k := .setMapControl (yesNo m) (yesNo f) (typeByte ty) (yesNo r)) rfl rfl (by simp [cmdFormatOk]) hp]
  congr 2
  refine ran_of_changeMap ?_
  simp only [runCmd, runSetMapControl, flag_yesNo, typeOfCode_typeByte]
  rfl

/-! ## SET MIRROR PAIR (R15) -/

theorem sealedThroughout_eq_false_iff (m : VolumeMap) (n : Nat) :
    m.sealedThroughout n = false ↔ ∃ u ∈ mapUnits, u.1 = n ∧ (m.resolve u.1 u.2).htype ≠ .sealed := by
  rw [← Bool.not_eq_true, VolumeMap.sealedThroughout, List.all_eq_true]
  push Not
  simp only [ne_eq, Bool.or_eq_true, bne_iff_ne, decide_eq_true_eq, not_or, not_not]

theorem pairedElsewhere_iff (m : VolumeMap) (i n : Nat) :
    m.pairedElsewhere i n = true ↔
      ∃ k : Fin 16, k.val ≠ i ∧ m.pairs[k].valid = true ∧ (m.pairs[k].primary = n ∨ m.pairs[k].mirror = n) := by
  simp only [VolumeMap.pairedElsewhere, List.any_eq_true, Prod.exists, List.mem_zipIdx_iff_getElem?, Bool.and_eq_true,
    Bool.or_eq_true, bne_iff_ne, decide_eq_true_eq]
  constructor
  · rintro ⟨p, k, hk, ⟨h1, h2⟩, h3⟩
    rw [Vector.getElem?_toList, Vector.getElem?_eq_some_iff] at hk
    obtain ⟨hlt, rfl⟩ := hk
    exact ⟨⟨k, hlt⟩, h1, h2, h3⟩
  · rintro ⟨k, h1, h2, h3⟩
    exact ⟨m.pairs[k], k.val, by simp, ⟨h1, h2⟩, h3⟩

/-- Check 4 of R15: either surface stands in another valid pair. -/
theorem pairedElsewhere_or_iff (m : VolumeMap) (i p q : Nat) :
    (m.pairedElsewhere i p = true ∨ m.pairedElsewhere i q = true) ↔
      ∃ k : Fin 16, k.val ≠ i ∧ m.pairs[k].valid = true ∧
        (m.pairs[k].primary = p ∨ m.pairs[k].mirror = p ∨ m.pairs[k].primary = q ∨ m.pairs[k].mirror = q) := by
  rw [pairedElsewhere_iff, pairedElsewhere_iff, ← exists_or]
  exact exists_congr fun k => by tauto

/-- Settles O17: the checks of the model, each read as its check of R15, are taken one after the other. -/
theorem setMirrorPairChecksInOrder : Obligations.SetMirrorPairChecksInOrder := by
  intro s src i p m hp
  refine ⟨?_, ?_⟩
  · rw [exec_eq_gated (k := .setMirrorPair i 1 p m) rfl rfl rfl hp]
    congr 2
    have hrun : runCmd (.setMirrorPair i 1 p m) (s.fresh.fetchRecord src) =
      runSetMirrorPair i 1 p m (s.fresh.fetchRecord src) := rfl
    unfold runSetMirrorPair at hrun
    simp only [show (s.fresh.fetchRecord src).map = s.map from rfl, if_neg (show ¬ (1 : Byte) = 0 by decide),
      Bool.or_eq_true, decide_eq_true_eq, platterOf, Bool.not_eq_true', sealedThroughout_eq_false_iff,
      pairedElsewhere_or_iff] at hrun
    split
    · next h =>
      obtain ⟨h1, h2, h3⟩ := h
      rw [if_neg (show ¬ 15 < i.toNat by omega), if_neg (show ¬ (191 < p.toNat ∨ 191 < m.toNat) by omega)] at hrun
      split
      · next hd => exact ran_of_error (hrun.trans (if_pos hd))
      · next hd =>
        rw [if_neg hd] at hrun
        split
        · next hs => exact ran_of_error (hrun.trans (if_pos hs))
        · next hs =>
          rw [if_neg hs] at hrun
          split
          · next ho => exact ran_of_error (hrun.trans (if_pos ho))
          · next ho =>
            rw [if_neg ho, setIfInBounds_of_lt _ _ h1] at hrun
            exact ran_of_map hrun
    · next h =>
      refine ran_of_error ?_
      by_cases hi : 15 < i.toNat
      · exact hrun.trans (if_pos hi)
      · exact hrun.trans ((if_neg hi).trans (if_pos (by omega)))
  · rw [exec_eq_gated (k := .setMirrorPair i 0 p m) rfl rfl rfl hp]
    congr 2
    have hrun : runCmd (.setMirrorPair i 0 p m) (s.fresh.fetchRecord src) =
      runSetMirrorPair i 0 p m (s.fresh.fetchRecord src) := rfl
    unfold runSetMirrorPair at hrun
    simp only [show (s.fresh.fetchRecord src).map = s.map from rfl, if_true] at hrun
    split
    · next h =>
      rw [if_neg (show ¬ 15 < i.toNat by omega), Vector.getElem?_eq_getElem h] at hrun
      dsimp only at hrun
      rw [setIfInBounds_of_lt _ _ h] at hrun
      exact ran_of_map hrun
    · next h => exact ran_of_error (hrun.trans (if_pos (show 15 < i.toNat by omega)))

/-! ## Window 7 (R1, R169) -/

/-- Settles O30: both sides take one command, the control-window command or the control-window read. -/
theorem windowSevenIsTheControlWindow : Obligations.WindowSevenIsTheControlWindow := by
  refine ⟨fun c s src k data hc hd => ?_, fun s src b n hb => ?_⟩
  · rw [exec_of_asCmd hc, ← hd]
    rfl
  · have hw : windowOf (469762048 + b) = 7 := by simp only [windowOf, Config.windowSpan]; omega
    have ha : archiveBlock (469762048 + b) = b := by simp only [archiveBlock, Config.windowSpan]; omega
    simp only [exec, execRead, execControlWindowRead, hw, ha, if_true]

end Sys2Proof.Machine
end

section
/-! Acceptance (R23, R24, R26, R27, R138), and the division of an extent into map units with their resolution (R2, R12 to
R14, R28). -/

namespace Sys2Proof.Machine

/-! ## The acceptance checks (R24) -/

/-- The request of an initiator with a tag is in the table when a request of the table has both (R25). -/
theorem request_isSome (j : Jukebox) (i : Fin 7) (t : Fin 8) :
    (j.request i t).isSome = j.table.any fun q => q.initiator = i && q.tag = t := by
  rw [Jukebox.request, Bool.eq_iff_iff, List.find?_isSome, List.any_eq_true]

/-- The status a command is refused with is that of the first of checks 2 to 9 that holds. -/
theorem refusal_eq_firstHolding (s : State) (src : Src) (k : Kind) (lba n : Nat) :
    refusal s.env s.jb src k lba n = firstHolding (acceptanceChecks s src k lba n) := by
  unfold refusal acceptanceChecks
  simp only [firstHolding]
  refine if_congr ?_ rfl (if_congr Iff.rfl rfl (if_congr ?_ rfl (if_congr Iff.rfl rfl (if_congr ?_ rfl (if_congr ?_ rfl
    (if_congr Iff.rfl rfl (if_congr ?_ rfl rfl)))))))
  · simp only [Bool.or_eq_true, decide_eq_true_eq]
    rfl
  · cases k <;> simp
  · rw [request_isSome]
  · simp only [Bool.or_eq_true, decide_eq_true_eq]
    rfl
  · rfl

/-- A READ or WRITE of windows 0..6 given to a part with power is refused or accepted (R24). -/
theorem exec_blockCommand {s : State} {src : Src} {lba n : Nat} (data : List Block) (k : Kind) (hp : s.powered = true)
    (hw : lba / 67108864 ≠ 7) :
    ∃ d, exec (blockCommand src lba n data k) s = .next (accept src k lba n d s.fresh) := by
  have hw' : ¬ windowOf lba = 7 := hw
  cases k
  · refine ⟨[], ?_⟩
    simp only [blockCommand, exec, execRead, take_of_powered hp, if_neg hw']
  · refine ⟨data, ?_⟩
    simp only [blockCommand, exec, execWrite, take_of_powered hp, if_neg hw']

/-- Settles O31: the refusal of the model is the first check that holds, and a refusal only sends its status. -/
theorem acceptanceChecksInOrder : Obligations.AcceptanceChecksInOrder := by
  intro s src k lba n data st hp hw hc
  obtain ⟨d, he⟩ := exec_blockCommand (src := src) (n := n) data k hp hw
  have hr : refusal s.fresh.env s.fresh.jb src k lba n = some st :=
    (refusal_eq_firstHolding s.fresh src k lba n).trans hc
  rw [he, accept, hr]
  rfl

/-! ## What an acceptance keeps -/

section keeps
variable {e : Env} {j : Jukebox}

theorem serveRam_platters (r : SegRef) : (serveRam r j).platters = j.platters := by
  unfold serveRam
  split
  · rfl
  · refine (finishSegment_quiet (.refl _)).platters.trans ?_
    dsimp only [onSegment_platters]
    split <;> rfl

theorem serveRam_surfaces (r : SegRef) : (serveRam r j).surfaces = j.surfaces := by
  unfold serveRam
  split
  · rfl
  · refine (finishSegment_quiet (.refl _)).surfaces.trans ?_
    dsimp only [onSegment_surfaces]
    split <;> rfl

theorem handOn_platters (x : SegRef × Segment) : (handOn e j x).platters = j.platters := by
  unfold handOn
  split
  · exact serveRam_platters _
  · exact (joinList_quiet (.refl _)).platters

theorem handOn_surfaces (x : SegRef × Segment) : (handOn e j x).surfaces = j.surfaces := by
  unfold handOn
  split
  · exact serveRam_surfaces _
  · exact (joinList_quiet (.refl _)).surfaces

/-- What every round of a fold leaves alone, the fold leaves alone. -/
theorem foldl_leaves {α β : Type} {f : Jukebox → α → Jukebox} {p : Jukebox → β} (hf : ∀ j x, p (f j x) = p j) (l : List α)
    (j : Jukebox) : p (l.foldl f j) = p j := by
  induction l generalizing j with
  | nil => rfl
  | cons x l ih => exact (ih _).trans (hf j x)

/-- A new request takes the last place of the table; no request of the table changes what acceptance fixed. -/
theorem takeIn_cores (q : Request) : (takeIn e q j).table.map Request.core = j.table.map Request.core ++ [q.core] := by
  have hk : Kept false { j with table := j.table ++ [q] } (takeIn e q j) := by
    unfold takeIn
    dsimp only
    split
    · split
      · exact examineHead_kept (.refl _)
      · exact .refl _
    · exact foldl_kept (fun _ _ h => handOn_kept h) _ (.refl _)
  rw [hk.cores, List.map_append]
  rfl

theorem takeIn_platters (q : Request) : (takeIn e q j).platters = j.platters := by
  unfold takeIn
  dsimp only
  split
  · split
    · exact (examineHead_mild (.refl _)).platters
    · rfl
  · exact foldl_leaves (p := Jukebox.platters) (fun _ => handOn_platters) _ _

/-- A request that does not wait for a reservation touches no surface record. -/
theorem takeIn_surfaces {q : Request} (hq : q.state ≠ .stagingWait) : (takeIn e q j).surfaces = j.surfaces := by
  unfold takeIn
  dsimp only
  rw [if_neg hq]
  exact foldl_leaves (p := Jukebox.surfaces) (fun _ => handOn_surfaces) _ _

end keeps

/-- A READ is ACTIVE from its acceptance on (R33). -/
theorem newRequest_read_state (e : Env) (gen : BitVec 8) (j : Jukebox) (src : Src) (lba n : Nat) (data : List Block) :
    (newRequest e gen j src .read lba n data).state ≠ .stagingWait := nofun

/-- The state an accepted READ or WRITE of windows 0..6 leaves. -/
theorem exec_accepted {s : State} {src : Src} {k : Kind} {lba n : Nat} (data : List Block) (hp : s.powered = true)
    (hw : lba / 67108864 ≠ 7) (hc : firstHolding (acceptanceChecks s src k lba n) = none) :
    ∃ d, exec (blockCommand src lba n data k) s = .next { s with
      fee := s.fee.enter
      jb := takeIn s.env (newRequest s.env s.fee.generation s.fresh.jb src k lba n d) s.fresh.jb } := by
  obtain ⟨d, he⟩ := exec_blockCommand (src := src) (n := n) data k hp hw
  have hr : refusal s.fresh.env s.fresh.jb src k lba n = none := (refusal_eq_firstHolding s.fresh src k lba n).trans hc
  refine ⟨d, ?_⟩
  rw [he, accept, hr]
  rfl

/-- The part of what acceptance fixes that the claim of O32 names. -/
def fixedOfCore (c : (Fin 7 × Fin 8 × Kind × Nat × Nat × Level) × Nat × Nat × BitVec 8 × Option Nat × Nat × List Block) :
    Fin 7 × Fin 8 × Kind × Nat × Nat × Level × Nat × Nat × BitVec 8 × Option Nat :=
  (c.1.1, c.1.2.1, c.1.2.2.1, c.1.2.2.2.1, c.1.2.2.2.2.1, c.1.2.2.2.2.2, c.2.1, c.2.2.1, c.2.2.2.1, c.2.2.2.2.1)

/-- Settles O32: the new request is placed last, and handing its segments on changes no part acceptance fixed. -/
theorem acceptedRequestJoinsTheTable : Obligations.AcceptedRequestJoinsTheTable := by
  intro s src k lba n data hp hw hc w fixedPart
  obtain ⟨d, he⟩ := exec_accepted data hp hw hc
  refine ⟨_, he, ?_, rfl, rfl, rfl, rfl, takeIn_platters _, ?_⟩
  · have hf : fixedPart = fixedOfCore ∘ Request.core := rfl
    rw [hf, ← List.map_map, takeIn_cores, List.map_append, List.map_map]
    refine congrArg _ (congrArg (fun x => [x]) ?_)
    rw [Nat.mul_comm 1000]
    cases k <;> rfl
  · rintro rfl
    exact takeIn_surfaces (newRequest_read_state _ _ _ _ _ _ _)

end Sys2Proof.Machine
end

section
/-! The division of an extent into map units (R2, R28), their resolution (R12 to R14), and the segments that carry it. -/

namespace Sys2Proof.Machine

/-! ## What no event changes of a segment: its blocks and the resolution of its unit (R14, R28) -/

/-- The blocks of a segment and the resolution of its map unit, as its record carries them. -/
def Segment.unit (g : Segment) : Nat × Nat × Nat × Resolution :=
  (g.surface, g.first, g.count, ⟨g.htype, g.readRoute, g.writeRoute, g.mirror⟩)

/-- The blocks and resolutions of a request's segments. -/
def Request.units (q : Request) : List (Nat × Nat × Nat × Resolution) := q.segments.map Segment.unit

/-- The requests of `k` have the segments of the requests of `a`, as far as acceptance fixed them. -/
def SameUnits (a k : Jukebox) : Prop := k.table.map Request.units = a.table.map Request.units

section units
variable {a j : Jukebox} {e : Env}

theorem SameUnits.refl (j : Jukebox) : SameUnits j j := rfl

theorem SameUnits.same {k : Jukebox} (h : SameUnits a j) (ht : k.table = j.table) : SameUnits a k := by
  unfold SameUnits at *
  rw [ht, h]

/-- Changing the requests of a table one by one keeps the units if every change does. -/
theorem SameUnits.mapTable {f : Request → Request} (h : SameUnits a j) (hf : ∀ q, (f q).units = q.units) :
    SameUnits a { j with table := j.table.map f } := by
  unfold SameUnits at *
  rw [← h, List.map_map]
  exact List.map_congr_left fun q _ => hf q

theorem SameUnits.onRequest {i : Fin 7} {t : Fin 8} {f : Request → Request} (h : SameUnits a j)
    (hf : ∀ q, (f q).units = q.units) : SameUnits a (j.onRequest i t f) :=
  h.mapTable fun q => by
    split
    · exact hf q
    · rfl

theorem Request.units_onSegment (q : Request) (k : Nat) {f : Segment → Segment} (hf : ∀ g, (f g).unit = g.unit) :
    (q.onSegment k f).units = q.units := by
  refine List.ext_getElem? fun i => ?_
  simp only [Request.units, Request.onSegment, List.getElem?_map, List.getElem?_modify]
  cases q.segments[i]? with
  | none => rfl
  | some g =>
    refine congrArg some ?_
    dsimp only
    split
    · exact hf g
    · rfl

/-- Changing the segments of a request one by one keeps the units if every change does. -/
theorem Request.units_mapSegments {q r : Request} {f : Segment → Segment} (hr : r.segments = q.segments.map f)
    (hf : ∀ g, (f g).unit = g.unit) : r.units = q.units := by
  rw [Request.units, hr, List.map_map]
  exact List.map_congr_left fun g _ => hf g

theorem Request.units_rolled (q : Request) : q.rolled.units = q.units := by
  unfold Request.rolled
  split <;> rfl

theorem SameUnits.onSegment {r : SegRef} {f : Segment → Segment} (h : SameUnits a j) (hf : ∀ g, (f g).unit = g.unit) :
    SameUnits a (j.onSegment r f) := h.onRequest fun q => q.units_onSegment _ hf

theorem foldl_sameUnits {α : Type} {f : Jukebox → α → Jukebox} (hf : ∀ j x, SameUnits a j → SameUnits a (f j x))
    (l : List α) (h : SameUnits a j) : SameUnits a (l.foldl f j) := by
  induction l generalizing j with
  | nil => exact h
  | cons x l ih => exact ih (hf _ _ h)

/-! ### Orders and drives do not touch the table -/

theorem checkStep1_table (e : Env) (j : Jukebox) : (checkStep1 e j).table = j.table := by
  unfold checkStep1
  repeat' split
  all_goals rfl

theorem startNext_table (e : Env) (j : Jukebox) : (startNext e j).table = j.table := by
  unfold startNext
  split
  · split
    · rfl
    · dsimp only
      split
      · rw [checkStep1_table]; rfl
      · rfl
  · rfl

theorem placeOrder_table (e : Env) (d : Fin 4) (n : Nat) (x : Bool) (j : Jukebox) :
    (placeOrder e d n x j).table = j.table := by
  unfold placeOrder
  dsimp only
  split
  · rfl
  · exact startNext_table _ _

theorem beginBurst_table (d : Fin 4) (j : Jukebox) : (beginBurst d j).table = j.table := by
  unfold beginBurst
  dsimp only
  repeat' split
  all_goals rfl

theorem seek_table (e : Env) (d : Fin 4) (n : Nat) (x : Bool) (j : Jukebox) : (seek e d n x j).table = j.table := by
  unfold seek
  split
  · exact beginBurst_table _ _
  · exact placeOrder_table _ _ _ _ _

theorem considerPreempt_table (e : Env) (r : SegRef) (j : Jukebox) : (considerPreempt e r j).table = j.table := by
  unfold considerPreempt
  repeat' split
  all_goals rfl

/-! ### The arbiter and the filing engine -/

theorem takeFromList_sameUnits {w : WorkRef} (h : SameUnits a j) : SameUnits a (takeFromList w j) := by
  unfold takeFromList
  split
  · exact (h.onSegment (f := fun g => { g with state := .inService }) fun _ => rfl).same rfl
  · exact h.same rfl

theorem dispatch_sameUnits {d : Fin 4} {it : Item} (h : SameUnits a j) : SameUnits a (dispatch e d it j) :=
  (takeFromList_sameUnits (j := { j with lastTier := it.level.tier }) (h.same rfl)).same (seek_table _ _ _ _ _)

theorem push_sameUnits {w : WorkRef} (h : SameUnits a j) : SameUnits a (push e w j) := by
  unfold push
  repeat' split
  all_goals first | exact h | exact dispatch_sameUnits h | exact h.same (considerPreempt_table _ _ _)

theorem finishSegment_sameUnits {r : SegRef} {st : Status} (h : SameUnits a j) : SameUnits a (finishSegment r st j) := by
  have hf : ∀ (q : Request) (x y z : Nat),
      ({ q.onSegment r.index (Segment.finished st) with delivered := x, billable := y, staged := z : Request }.rolled).units =
        q.units := fun q _ _ _ => (Request.units_rolled _).trans (q.units_onSegment _ fun _ => rfl)
  unfold finishSegment
  split
  · exact h
  · dsimp only
    split
    · exact h.onRequest fun q => hf q _ _ _
    · exact (h.onRequest fun q => hf q _ _ _).same rfl

theorem testReach_sameUnits {r : SegRef} (h : SameUnits a j) : SameUnits a (testReach r j) := by
  unfold testReach
  repeat' split
  all_goals first
    | exact h
    | exact h.onSegment fun _ => rfl
    | exact (finishSegment_sameUnits h).same rfl

theorem joinList_sameUnits {r : SegRef} (h : SameUnits a j) : SameUnits a (joinList e r j) :=
  push_sameUnits (testReach_sameUnits h)

theorem serveRam_sameUnits {r : SegRef} (h : SameUnits a j) : SameUnits a (serveRam r j) := by
  unfold serveRam
  split
  · exact h
  · refine finishSegment_sameUnits (SameUnits.onSegment ?_ fun _ => rfl)
    split
    · exact h
    · exact h.same rfl

theorem handOn_sameUnits {x : SegRef × Segment} (h : SameUnits a j) : SameUnits a (handOn e j x) := by
  unfold handOn
  split
  · exact serveRam_sameUnits h
  · exact joinList_sameUnits h

theorem testFlush_sameUnits {n : Nat} (h : SameUnits a j) : SameUnits a (testFlush e n j) := by
  unfold testFlush
  split
  · exact push_sameUnits (h.same rfl)
  · exact h

theorem stageIn_table (q : Request) (g : Segment) (j : Jukebox) (n : Nat) : (stageIn e q g j n).table = j.table := by
  unfold stageIn
  split <;> rfl

theorem stageSegment_table (q : Request) (j : Jukebox) (g : Segment) : (stageSegment e q j g).table = j.table :=
  foldl_leaves (p := Jukebox.table) (stageIn_table q g) g.indices _

theorem Request.units_reserved (low : Bool) (q : Request) : (q.reserved low).units = q.units :=
  (Request.units_rolled _).trans (Request.units_mapSegments rfl fun g => by split <;> rfl)

theorem Request.units_endedWith (q : Request) (st : Status) : (q.endedWith st).units = q.units :=
  Request.units_mapSegments rfl fun g => by split <;> rfl

theorem reserve_sameUnits {q : Request} (h : SameUnits a j) : SameUnits a (reserve e q j) := by
  unfold reserve
  refine foldl_sameUnits (fun _ _ h => testFlush_sameUnits h) _ (foldl_sameUnits (fun _ x h => ?_) _ ?_)
  · split
    · exact h
    · exact joinList_sameUnits h
  · exact (h.same (foldl_leaves (p := Jukebox.table) (stageSegment_table q) _ _)).onRequest fun q => q.units_reserved _

theorem examineN_sameUnits {n : Nat} (h : SameUnits a j) : SameUnits a (examineN e n j) := by
  induction n generalizing j with
  | zero => exact h
  | succ n ih =>
    unfold examineN
    repeat' split
    · exact h
    · exact ih (h.onRequest fun q => q.units_endedWith _)
    · exact h
    · exact ih (reserve_sameUnits h)

/-- An acceptance adds the new request's units to those of the table, and changes none. -/
theorem takeIn_units (q : Request) :
    (takeIn e q j).table.map Request.units = j.table.map Request.units ++ [q.units] := by
  have hk : SameUnits { j with table := j.table ++ [q] } (takeIn e q j) := by
    unfold takeIn
    dsimp only
    split
    · split
      · exact examineN_sameUnits (.refl _)
      · exact .refl _
    · exact foldl_sameUnits (fun _ _ h => handOn_sameUnits h) _ (.refl _)
  exact hk.trans (by rw [List.map_append]; rfl)

end units

theorem newSegment_unit (e : Env) (j : Jukebox) (k : Kind) (x : Nat × Nat × Nat) :
    (newSegment e j k x).unit = (x.1, x.2.1, x.2.2, e.map.resolve x.1 x.2.1) := by
  unfold newSegment
  cases k <;> dsimp only <;> split <;> rfl

theorem newRequest_units (e : Env) (gen : BitVec 8) (j : Jukebox) (src : Src) (k : Kind) (lba n : Nat) (data : List Block) :
    (newRequest e gen j src k lba n data).units =
      (divide (lba % 67108864) n).map fun x => (x.1, x.2.1, x.2.2, e.map.resolve x.1 x.2.1) := by
  show ((divide (archiveBlock lba) n).map (newSegment e j k)).map Segment.unit = _
  rw [List.map_map]
  exact List.map_congr_left fun x _ => newSegment_unit e j k x

/-- Each segment of an accepted request carries the resolution of its map unit (R14). -/
theorem accepted_units {s : State} {src : Src} {k : Kind} {lba n : Nat} (data : List Block) (hp : s.powered = true)
    (hw : lba / 67108864 ≠ 7) (hc : firstHolding (acceptanceChecks s src k lba n) = none) :
    ∃ t q, exec (blockCommand src lba n data k) s = .next t ∧ t.jb.table.getLast? = some q ∧
      q.units = (divide (lba % 67108864) n).map fun x => (x.1, x.2.1, x.2.2, s.map.resolve x.1 x.2.1) := by
  obtain ⟨d, he⟩ := exec_accepted data hp hw hc
  have hu := takeIn_units (e := s.env) (j := s.fresh.jb) (newRequest s.env s.fee.generation s.fresh.jb src k lba n d)
  have hl := congrArg List.getLast? hu
  rw [List.getLast?_map, List.getLast?_concat] at hl
  obtain ⟨q, hq, hqu⟩ := Option.map_eq_some_iff.1 hl
  exact ⟨_, q, he, hq, hqu.trans (newRequest_units ..)⟩

/-! ## The division of an extent (R2, R28) -/

/-- A segment lies on one map unit of the jukebox: it has a block, its surface is one of the 192, and its blocks stand on that
surface, in one piece of it where the surface is divided into pieces (R2). -/
def OnOneUnit (x : Nat × Nat × Nat) : Prop :=
  1 ≤ x.2.2 ∧ x.1 ≤ 191 ∧ x.2.1 + x.2.2 ≤ 262144 ∧ (x.1 < 2 → x.2.1 / 16384 = (x.2.1 + x.2.2 - 1) / 16384)

/-- The archive blocks of an extent's segment. -/
def archiveBlocksOf (x : Nat × Nat × Nat) : List Nat := (List.range x.2.2).map fun k => x.1 * 262144 + x.2.1 + k

/-- The end of a unit is above the block, on its surface, and at a boundary between pieces (R2). -/
theorem unitEnd_bounds {s b : Nat} (hb : b < 262144) :
    b < unitEnd s b ∧ unitEnd s b ≤ 262144 ∧ unitEnd s b % 16384 = 0 ∧
      ((s < 2 ∧ unitEnd s b = (b / 16384 + 1) * 16384) ∨ (2 ≤ s ∧ unitEnd s b = 262144)) := by
  unfold unitEnd
  simp only [Config.pieceBlocks, Config.surfaceBlocks]
  split <;> omega

/-- An extent that ends in its first unit is one segment (R28). -/
theorem divide_of_fits {start n : Nat} (h : start % 262144 + n ≤ unitEnd (start / 262144) (start % 262144)) :
    divide start n = [(start / 262144, start % 262144, n)] := by
  have hf : n ≤ unitEnd (start / 262144) (start % 262144) - start % 262144 := by omega
  exact if_pos hf

/-- An extent that crosses the end of its first unit is two segments, the second at that end (R28). -/
theorem divide_of_crosses {start n u : Nat} (hu : unitEnd (start / 262144) (start % 262144) = u)
    (h : u < start % 262144 + n) :
    divide start n = [(start / 262144, start % 262144, u - start % 262144),
      ((start + (u - start % 262144)) / 262144, (start + (u - start % 262144)) % 262144, n - (u - start % 262144))] := by
  have hb : start % 262144 < 262144 := Nat.mod_lt _ (by decide)
  have hu1 := (unitEnd_bounds (s := start / 262144) hb).1
  subst hu
  have hf : ¬ n ≤ unitEnd (start / 262144) (start % 262144) - start % 262144 := by omega
  exact if_neg hf

/-- The division of an extent of the archive space: one segment or two, each on one map unit, their blocks those of the extent
in order, the second beginning at a boundary (R28). -/
theorem divide_spec {start n : Nat} (h1 : 1 ≤ n) (h2 : n ≤ 1024) (h3 : start + n ≤ 50331648) :
    ((divide start n).length = 1 ∨ (divide start n).length = 2) ∧
    (divide start n).flatMap archiveBlocksOf = (List.range n).map (fun k => start + k) ∧
    (∀ x ∈ divide start n, OnOneUnit x) ∧
    ∀ x ∈ (divide start n).drop 1, x.2.1 = 0 ∨ (x.1 < 2 ∧ x.2.1 % 16384 = 0) := by
  have hb : start % 262144 < 262144 := Nat.mod_lt _ (by decide)
  have hs : start / 262144 * 262144 + start % 262144 = start := Nat.div_add_mod' start 262144
  obtain ⟨hu1, hu2, hu3, hu4⟩ := unitEnd_bounds (s := start / 262144) hb
  generalize hu : unitEnd (start / 262144) (start % 262144) = u at hu1 hu2 hu3 hu4
  by_cases hf : start % 262144 + n ≤ u
  · rw [divide_of_fits (hu ▸ hf)]
    refine ⟨.inl rfl, ?_, ?_, by simp⟩
    · simp only [List.flatMap_cons, List.flatMap_nil, List.append_nil, archiveBlocksOf, hs]
    · simp only [List.mem_singleton, forall_eq, OnOneUnit]
      omega
  · rw [divide_of_crosses hu (by omega)]
    generalize hr : u - start % 262144 = room
    have hn : (start + room) / 262144 * 262144 + (start + room) % 262144 = start + room := Nat.div_add_mod' _ _
    refine ⟨.inr rfl, ?_, ?_, ?_⟩
    · simp only [List.flatMap_cons, List.flatMap_nil, List.append_nil, archiveBlocksOf, hs, hn]
      rw [show n = room + (n - room) by omega, List.range_add, List.map_append, List.map_map, Nat.add_sub_cancel_left]
      simp only [Function.comp_def, Nat.add_assoc]
    · simp only [List.mem_cons, List.not_mem_nil, or_false, forall_eq_or_imp, forall_eq, OnOneUnit]
      omega
    · simp only [List.drop_succ_cons, List.drop_zero, List.mem_singleton, forall_eq]
      omega

/-! ## The resolution of a map unit (R12 to R14) -/

theorem leastBy_mem {α : Type} {key : α → Nat} {l : List α} {y : α} (h : leastBy key l = some y) : y ∈ l := by
  induction l generalizing y with
  | nil => cases h
  | cons x l ih =>
    unfold leastBy at h
    split at h
    · cases h; exact List.mem_cons_self
    · next z hz =>
      split at h
      · cases h; exact List.mem_cons_self
      · cases h; exact List.mem_cons_of_mem _ (ih hz)

/-- The least element is the first one that none has a smaller key than. -/
theorem leastBy_append_cons {α : Type} {key : α → Nat} {l r : List α} {x : α} (hl : ∀ y ∈ l, key x < key y)
    (hr : ∀ y ∈ r, key x ≤ key y) : leastBy key (l ++ x :: r) = some x := by
  induction l with
  | nil =>
    show leastBy key (x :: r) = some x
    unfold leastBy
    split
    · rfl
    · next y hy => exact if_pos (hr y (leastBy_mem hy))
  | cons z l ih =>
    have hz := hl z List.mem_cons_self
    show leastBy key (z :: (l ++ x :: r)) = some x
    rw [leastBy, ih fun y hy => hl y (List.mem_cons_of_mem _ hy)]
    exact if_neg (by omega)

section resolution
variable (m : VolumeMap)

/-- Variable range `k` is valid and covers a surface (R10). -/
def VolumeMap.Covers (n : Nat) (k : Fin 16) : Prop := m.vars[k].valid = true ∧ m.vars[k].first ≤ n ∧ n ≤ m.vars[k].last

/-- The place of a type in the order of restrictiveness, as the claim of O33 lists it (R13). -/
def typePlace (ty : HType) : Nat := [HType.void, .sealed, .direct, .retain, .gather].idxOf ty

/-- Range `k` is the lowest-numbered one of the most restrictive type among those covering a surface (R13, R14). -/
def VolumeMap.Wins (n : Nat) (k : Fin 16) : Prop :=
  m.Covers n k ∧ ∀ i, m.Covers n i →
    typePlace m.vars[k].htype < typePlace m.vars[i].htype ∨ (m.vars[k].htype = m.vars[i].htype ∧ k ≤ i)

/-- Pair `k` is valid and has a surface as its primary (R14). -/
def VolumeMap.IsPair (n : Nat) (k : Fin 16) : Prop := m.pairs[k].valid = true ∧ m.pairs[k].primary = n

/-- The unit of block `b` of surface `n` resolves to a type and routes, with GATHER made SEALED on the index platter and the
routes PRIMARY where routing does not apply (R12 to R14). -/
def VolumeMap.ResolvesTo (n b : Nat) (ty : HType) (read : Side) (write : WriteRoute) : Prop :=
  (m.resolve n b).htype = (if n < 2 ∧ ty = .gather then .sealed else ty) ∧
  (m.control.routing = true → (∃ k, m.IsPair n k) → (m.resolve n b).readRoute = read ∧ (m.resolve n b).writeRoute = write) ∧
  (m.control.routing = false ∨ (∀ k, ¬ m.IsPair n k) →
    (m.resolve n b).readRoute = .primary ∧ (m.resolve n b).writeRoute = .primary)

variable {m} {n b : Nat}

theorem restrictiveness_eq_typePlace (ty : HType) : ty.restrictiveness = typePlace ty := by cases ty <;> rfl

theorem mem_toList_iff_exists_fin {α : Type} {c : Nat} {v : Vector α c} {x : α} : x ∈ v.toList ↔ ∃ k : Fin c, x = v[k] := by
  rw [Vector.mem_toList_iff, Vector.mem_iff_getElem]
  constructor
  · rintro ⟨i, hi, rfl⟩; exact ⟨⟨i, hi⟩, rfl⟩
  · rintro ⟨k, rfl⟩; exact ⟨k.val, k.isLt, rfl⟩

theorem mirrorOf_of_not_pair (h : ∀ k, ¬ m.IsPair n k) : m.mirrorOf n = none := by
  refine Option.map_eq_none_iff.2 (List.find?_eq_none.2 fun p hp hc => ?_)
  obtain ⟨k, rfl⟩ := mem_toList_iff_exists_fin.1 hp
  exact h k (by simpa [VolumeMap.IsPair] using hc)

theorem mirrorOf_of_pair (h : ∃ k, m.IsPair n k) : ∃ k, m.IsPair n k ∧ m.mirrorOf n = some m.pairs[k].mirror := by
  obtain ⟨k, hk⟩ := h
  cases hf : m.pairs.toList.find? fun p => p.valid && p.primary = n with
  | none =>
    have := List.find?_eq_none.1 hf _ (mem_toList_iff_exists_fin.2 ⟨k, rfl⟩)
    exact absurd (by simpa [VolumeMap.IsPair] using hk) this
  | some p =>
    obtain ⟨i, rfl⟩ := mem_toList_iff_exists_fin.1 (List.mem_of_find?_eq_some hf)
    exact ⟨i, by simpa [VolumeMap.IsPair] using List.find?_some hf, by rw [VolumeMap.mirrorOf, hf]; rfl⟩

/-- What a unit resolves to, from the type and routes its case of R13 gives. -/
theorem resolvesTo_of_source {ty : HType} {read : Side} {write : WriteRoute} (h : m.source n b = (ty, read, write)) :
    m.ResolvesTo n b ty read write := by
  unfold VolumeMap.ResolvesTo VolumeMap.resolve
  simp only [h, Bool.and_eq_true, decide_eq_true_eq]
  refine ⟨trivial, fun hr hp => ?_, fun hc => ?_⟩
  · obtain ⟨k, -, hk⟩ := mirrorOf_of_pair hp
    simp [hr, hk]
  · obtain hr | hp := hc
    · simp [hr]
    · simp [mirrorOf_of_not_pair hp]

theorem source_of_mapDisabled (h : m.control.mapEnable = false) :
    m.source n b = (m.control.defaultType, .primary, .primary) := by
  simp only [VolumeMap.source, h, Bool.not_false, if_true]

theorem source_of_fixed (h : m.control.mapEnable = true) (hn : n < 2) (hf : m.control.fixedEnable = true) {k : Fin 32}
    (hk : k.val = 16 * n + b / 16384) :
    m.source n b = (m.fixed[k].htype, m.fixed[k].readRoute, m.fixed[k].writeRoute) := by
  have hr : m.fixedRange n b = m.fixed[k] := by
    have hlt : 16 * n + b / 16384 < m.fixed.toList.length := by
      rw [Vector.length_toList, ← hk]; exact k.isLt
    show m.fixed.toList.getD (16 * n + b / 16384) _ = _
    rw [List.getD_eq_getElem _ _ hlt, Vector.getElem_toList]
    simp only [← hk]
    rfl
  simp only [VolumeMap.source, h, hn, hf, hr, Bool.not_true, Bool.false_eq_true, if_false, decide_true, Bool.and_self,
    if_true]

/-- Outside the pieces with a fixed range the variable ranges decide (R13). -/
theorem not_fixedRange_of (hn : 2 ≤ n ∨ m.control.fixedEnable = false) :
    (decide (n < 2) && m.control.fixedEnable) = false := by
  obtain hn | hn := hn
  · simp [Nat.not_lt.2 hn]
  · simp [hn]

theorem source_of_winner (h : m.control.mapEnable = true) (hn : 2 ≤ n ∨ m.control.fixedEnable = false) {r : VarRange}
    (hr : winner (m.covering n) = some r) : m.source n b = (r.htype, r.readRoute, r.writeRoute) := by
  simp only [VolumeMap.source, h, not_fixedRange_of hn, hr, Bool.not_true, Bool.false_eq_true, if_false]

theorem source_of_no_winner (h : m.control.mapEnable = true) (hn : 2 ≤ n ∨ m.control.fixedEnable = false)
    (hr : winner (m.covering n) = none) : m.source n b = (m.control.defaultType, .primary, .primary) := by
  simp only [VolumeMap.source, h, not_fixedRange_of hn, hr, Bool.not_true, Bool.false_eq_true, if_false]

theorem mem_covering_iff {r : VarRange} : r ∈ m.covering n ↔ ∃ k, m.Covers n k ∧ r = m.vars[k] := by
  simp only [VolumeMap.covering, List.mem_filter, mem_toList_iff_exists_fin, Bool.and_eq_true, decide_eq_true_eq, VolumeMap.Covers]
  constructor
  · rintro ⟨⟨k, rfl⟩, ⟨h1, h2⟩, h3⟩; exact ⟨k, ⟨h1, h2, h3⟩, rfl⟩
  · rintro ⟨k, ⟨h1, h2, h3⟩, rfl⟩; exact ⟨⟨k, rfl⟩, ⟨h1, h2⟩, h3⟩

theorem winner_of_none (h : ∀ k, ¬ m.Covers n k) : winner (m.covering n) = none := by
  have : m.covering n = [] := List.eq_nil_iff_forall_not_mem.2 fun r hr => by
    obtain ⟨k, hk, -⟩ := mem_covering_iff.1 hr
    exact h k hk
  rw [this]; rfl

/-- The ranges before the winner are less restrictive, and those after it not more. -/
theorem winner_of_wins {k : Fin 16} (h : m.Wins n k) : winner (m.covering n) = some m.vars[k] := by
  obtain ⟨hk, hw⟩ := h
  have hlen : k.val < m.vars.toList.length := by rw [Vector.length_toList]; exact k.isLt
  have hget : m.vars.toList[k.val] = m.vars[k] := by rw [Vector.getElem_toList]; rfl
  have hsplit : m.vars.toList = m.vars.toList.take k.val ++ m.vars[k] :: m.vars.toList.drop (k.val + 1) := by
    rw [← hget, List.getElem_cons_drop, List.take_append_drop]
  have hcov : (m.vars[k].valid && m.vars[k].first ≤ n && n ≤ m.vars[k].last) = true := by
    obtain ⟨h1, h2, h3⟩ := hk
    simp only [h1, h2, h3, decide_true, Bool.and_self]
  have hother : ∀ i : Nat, ∀ hi : i < m.vars.toList.length,
      (m.vars.toList[i].valid && m.vars.toList[i].first ≤ n && n ≤ m.vars.toList[i].last) = true →
      typePlace m.vars[k].htype < typePlace m.vars.toList[i].htype ∨
        (m.vars[k].htype = m.vars.toList[i].htype ∧ k.val ≤ i) := by
    intro i hi hc
    have hlt : i < 16 := by rwa [Vector.length_toList] at hi
    rw [Vector.getElem_toList] at hc ⊢
    exact hw ⟨i, hlt⟩ (by simpa [VolumeMap.Covers, and_assoc] using hc)
  unfold winner VolumeMap.covering
  rw [hsplit, List.filter_append, List.filter_cons, if_pos hcov]
  refine leastBy_append_cons (fun y hy => ?_) (fun y hy => ?_)
  · obtain ⟨hy, hc⟩ := List.mem_filter.1 hy
    obtain ⟨i, hi, rfl⟩ := List.mem_take_iff_getElem.1 hy
    rw [restrictiveness_eq_typePlace, restrictiveness_eq_typePlace]
    obtain h | ⟨-, h⟩ := hother i (by omega) hc
    · exact h
    · omega
  · obtain ⟨hy, hc⟩ := List.mem_filter.1 hy
    obtain ⟨i, hi, rfl⟩ := List.mem_drop_iff_getElem.1 hy
    rw [restrictiveness_eq_typePlace, restrictiveness_eq_typePlace]
    obtain h | ⟨h, -⟩ := hother _ _ hc
    · exact h.le
    · exact (congrArg typePlace h).le

end resolution

/-- Settles O33: the division, the resolutions an accepted request carries, and the cases of R13. -/
theorem divisionMeetsMapUnits : Obligations.DivisionMeetsMapUnits := by
  refine ⟨fun start n h1 h2 h3 => divide_spec h1 h2 h3, fun s src k lba n data hp hw hc => accepted_units data hp hw hc,
    fun m n b hn hb => ?_⟩
  refine ⟨fun h => resolvesTo_of_source (source_of_mapDisabled h), fun h => ⟨fun h2 hf k hk => ?_, fun hv => ?_⟩,
    mirrorOf_of_not_pair, mirrorOf_of_pair⟩
  · exact resolvesTo_of_source (source_of_fixed h h2 hf hk)
  · exact ⟨fun k hk => resolvesTo_of_source (source_of_winner h hv (winner_of_wins hk)),
      fun hk => resolvesTo_of_source (source_of_no_winner h hv (winner_of_none hk))⟩

end Sys2Proof.Machine
end

section
/-! Setting off: what the start of orders, of bursts and of dispatched segments does to the drives, and that a sweep leaves no
drive free that could take a waiting segment (R52, R54 to R56, R76 to R78). -/

namespace Sys2Proof.Machine

/-! ## What setting off does to a drive record -/

/-- `b` is `a` after the start of orders and bursts: the segment it holds, its pending preemption, its parked context and its
offline flag are the same, no dwell begins, and it stays in its state or goes to UNLOADING or TRANSFER. -/
structure Drive.SetsOff (a b : Drive) : Prop where
  ref : b.work.map Work.ref = a.work.map Work.ref
  preempt : b.preempt = a.preempt
  parked : b.parked = a.parked
  flagged : b.offlineFlag = a.offlineFlag
  dwell : b.dwell = a.dwell ∨ b.dwell = none
  state : b.state = a.state ∨ b.state = .unloading ∨ b.state = .transfer

theorem Drive.SetsOff.refl (a : Drive) : a.SetsOff a := ⟨rfl, rfl, rfl, rfl, .inl rfl, .inl rfl⟩

theorem Drive.SetsOff.trans {a b c : Drive} (h : a.SetsOff b) (k : b.SetsOff c) : a.SetsOff c where
  ref := k.ref.trans h.ref
  preempt := k.preempt.trans h.preempt
  parked := k.parked.trans h.parked
  flagged := k.flagged.trans h.flagged
  dwell := k.dwell.elim (fun e => h.dwell.imp e.trans e.trans) .inr
  state := k.state.elim (fun e => h.state.imp e.trans (Or.imp e.trans e.trans)) .inr

/-- `k` is `j` after orders, bursts or segments have set off: every drive has set off at most, inventory runs as before, no order
with a platter for a drive has gone, and the gather lines and flush segments are the same. -/
structure Onward (j k : Jukebox) : Prop where
  drives : ∀ x, (j.drive x).SetsOff (k.drive x)
  inventory : k.picker.inventory = j.picker.inventory
  awaits : ∀ x, j.awaitsInsert x = true → k.awaitsInsert x = true
  lines : k.lines = j.lines
  flushes : k.flushes = j.flushes

theorem Onward.refl (j : Jukebox) : Onward j j := ⟨fun _ => .refl _, rfl, fun _ => id, rfl, rfl⟩

theorem Onward.trans {a b c : Jukebox} (h : Onward a b) (k : Onward b c) : Onward a c :=
  ⟨fun x => (h.drives x).trans (k.drives x), k.inventory.trans h.inventory, fun x => k.awaits x ∘ h.awaits x,
    k.lines.trans h.lines, k.flushes.trans h.flushes⟩

section ops
variable {j : Jukebox} {e : Env} {d : Fin 4}

/-- A change of one drive sets off when it does so for that drive. -/
theorem onDrive_onward {f : Drive → Drive} (hf : (j.drive d).SetsOff (f (j.drive d))) : Onward j (j.onDrive d f) :=
  ⟨fun x => by
    rw [onDrive_drive]; split
    · next e => subst e; exact hf
    · exact .refl _, rfl, fun _ => id, rfl, rfl⟩

theorem onPicker_onward {f : Picker → Picker} (hf : (f j.picker).inventory = j.picker.inventory) : Onward j (j.onPicker f) :=
  ⟨fun _ => .refl _, hf, fun _ => id, rfl, rfl⟩

/-! ## Orders -/

/-- The order naming a drive after each order has been changed to one of the same drive. -/
theorem find?_map_drive {h : Order → Order} (hd : ∀ o, (h o).drive = o.drive) (l : List Order) (x : Fin 4) :
    (l.map h).find? (fun o => o.drive = x) = (l.find? fun o => o.drive = x).map h := by
  rw [List.find?_map]
  congr 2
  funext o
  simp only [Function.comp, hd]

/-- A change of orders one by one that makes none of them a RETURN HOME. -/
theorem mapOrders_onward {h : Order → Order} (hd : ∀ o, (h o).drive = o.drive)
    (hk : ∀ o, o.kind ≠ .returnHome → (h o).kind ≠ .returnHome) : Onward j { j with orders := j.orders.map h } :=
  ⟨fun _ => .refl _, rfl, fun x hx => by
    unfold Jukebox.awaitsInsert Jukebox.orderOf at hx ⊢
    dsimp only
    rw [find?_map_drive hd]
    cases ho : j.orders.find? fun o => o.drive = x with
    | none => rw [ho] at hx; cases hx
    | some o =>
      rw [ho] at hx
      simp only [Option.map_some, Option.any_some, bne_iff_ne] at hx ⊢
      exact hk o hx, rfl, rfl⟩

theorem onOrder_onward {h : Order → Order} (hd : ∀ o, (h o).drive = o.drive)
    (hk : ∀ o, o.kind ≠ .returnHome → (h o).kind ≠ .returnHome) : Onward j (j.onOrder d h) :=
  mapOrders_onward (fun o => by split <;> simp only [hd]) fun o ho => by split; exacts [hk o ho, ho]

/-- The orders of the queue that name another drive stay the first of their drive when an order joins it. -/
theorem find?_insertOrder_ne {o : Order} {x : Fin 4} (h : o.drive ≠ x) (l : List Order) :
    (insertOrder o l).find? (fun y => y.drive = x) = l.find? fun y => y.drive = x := by
  induction l with
  | nil => simp [insertOrder, h]
  | cons y l ih =>
    unfold insertOrder
    split
    · rw [List.find?_cons_of_neg (by simpa using h)]
    · rw [List.find?_cons, List.find?_cons, ih]

/-- An order joins the queue for a drive that none names. -/
theorem insertOrder_onward {o : Order} (h : j.orderOf o.drive = none) :
    Onward j { j with orders := insertOrder o j.orders } :=
  ⟨fun _ => .refl _, rfl, fun x hx => by
    by_cases hox : o.drive = x
    · subst hox; rw [Jukebox.awaitsInsert, h] at hx; cases hx
    · unfold Jukebox.awaitsInsert Jukebox.orderOf at hx ⊢
      rwa [find?_insertOrder_ne hox], rfl, rfl⟩

theorem freshLimit_onward : Onward j (freshLimit e j) := onPicker_onward rfl

theorem beginUnload_onward : Onward j (beginUnload e d j) :=
  onDrive_onward (by
    split
    · exact .refl _
    · exact ⟨rfl, rfl, rfl, rfl, .inr rfl, .inr (.inl rfl)⟩)

theorem checkStep1_onward : Onward j (checkStep1 e j) := by
  unfold checkStep1
  split
  · split
    · split
      · exact (onOrder_onward (h := fun o => { o with step := 2 }) (fun _ => rfl) fun _ => id).trans freshLimit_onward
      · exact onPicker_onward rfl
    · exact .refl j
  · exact .refl j

/-- The first order of the queue starts: its kind and drive are as they were. -/
theorem startHead_onward {o : Order} {rest : List Order} (ho : j.orders = o :: rest) :
    Onward j ({ j with orders := { o with state := .running, step := o.firstStep } :: rest }.onPicker
      fun p => { p with state := .busy }) :=
  ⟨fun _ => .refl _, rfl, fun x hx => by
    unfold Jukebox.awaitsInsert Jukebox.orderOf at hx ⊢
    rw [ho, List.find?_cons] at hx
    dsimp only [onPicker_orders]
    rw [List.find?_cons]
    dsimp only
    split at hx
    · next h => rw [h]; exact hx
    · next h => rw [h]; exact hx, rfl, rfl⟩

theorem startNext_onward : Onward j (startNext e j) := by
  unfold startNext
  split
  · split
    · exact .refl j
    · next o rest ho =>
      have hs := (startHead_onward ho).trans (freshLimit_onward (e := e))
      dsimp only
      split
      · exact (hs.trans beginUnload_onward).trans checkStep1_onward
      · exact hs
  · exact .refl j

theorem joinOrders_onward {o : Order} (h : j.orderOf o.drive = none) : Onward j (joinOrders e o j) :=
  (insertOrder_onward h).trans startNext_onward

theorem placeOrder_onward {n : Nat} {x : Bool} : Onward j (placeOrder e d n x j) := by
  unfold placeOrder
  dsimp only
  split
  · exact onOrder_onward (fun _ => rfl) fun _ _ => nofun
  · next h => exact joinOrders_onward h

theorem placeReturnHome_onward {x : Bool} (h : j.orderOf d = none) : Onward j (placeReturnHome e d x j) :=
  joinOrders_onward h

/-! ## Bursts and dispatches -/

theorem beginBurst_onward : Onward j (beginBurst d j) := by
  unfold beginBurst
  dsimp only
  split
  · next w hw =>
    split
    · split
      · split
        · exact ⟨fun _ => .refl _, rfl, fun _ => id, rfl, rfl⟩
        · exact onDrive_onward ⟨by rw [hw]; rfl, rfl, rfl, rfl, .inl rfl, .inl rfl⟩
      · exact .refl j
    · exact .refl j
  · exact .refl j

theorem enterTransfer_onward : Onward j (enterTransfer d j) :=
  (onDrive_onward ⟨rfl, rfl, rfl, rfl, .inl rfl, .inr (.inr rfl)⟩).trans beginBurst_onward

theorem seek_onward {n : Nat} {x : Bool} : Onward j (seek e d n x j) := by
  unfold seek
  split
  · exact enterTransfer_onward
  · exact placeOrder_onward

theorem takeFromList_orders (w : WorkRef) : (takeFromList w j).orders = j.orders := by cases w <;> rfl

theorem takeFromList_picker (w : WorkRef) : (takeFromList w j).picker = j.picker := by cases w <;> rfl

/-- A segment that leaves its list takes the pending preemptions that name it with it, and nothing else of a drive. -/
theorem takeFromList_drive (w : WorkRef) (x : Fin 4) :
    (takeFromList w j).drive x = j.drive x ∨ (takeFromList w j).drive x = { j.drive x with preempt := none } := by
  cases w with
  | request r =>
    simp only [takeFromList, withdrawNaming, Jukebox.drive, Fin.getElem_fin, Vector.getElem_map, onSegment_drives]
    split
    · exact .inr rfl
    · exact .inl rfl
  | flush n i => exact .inl rfl

/-- The jukebox as a dispatched segment sets off: it has left its list and the drive holds it (R54). -/
def Jukebox.assigned (j : Jukebox) (d : Fin 4) (it : Item) : Jukebox :=
  (takeFromList it.ref { j with lastTier := it.level.tier }).onDrive d fun x =>
    { x with
      work := some ⟨it.ref, it.level, [], none, none⟩, left := it.size, pass := j.firstPass it.ref, dwell := none
      preempt := none }

theorem dispatch_onward (it : Item) : Onward (j.assigned d it) (dispatch e d it j) :=
  seek_onward (j := j.assigned d it) (n := it.target) (x := decide (it.level = .express))

/-- What the drive of a dispatch holds (R54). -/
theorem dispatch_drive_self (it : Item) :
    ((dispatch e d it j).drive d).work.map Work.ref = some it.ref ∧ ((dispatch e d it j).drive d).dwell = none ∧
      ((dispatch e d it j).drive d).preempt = none ∧ ((dispatch e d it j).drive d).parked = (j.drive d).parked := by
  obtain ⟨hr, hp, hk, -, hw, -⟩ := (dispatch_onward (e := e) (j := j) (d := d) it).drives d
  have hd : (j.assigned d it).drive d = { j.drive d with
      work := some ⟨it.ref, it.level, [], none, none⟩, left := it.size, pass := j.firstPass it.ref, dwell := none
      preempt := none } := by
    rw [Jukebox.assigned, onDrive_drive_self]
    obtain h | h := takeFromList_drive (j := { j with lastTier := it.level.tier }) it.ref d <;> rw [h] <;> rfl
  rw [hd] at hr hp hk hw
  exact ⟨hr, hw.elim id id, hp, hk⟩

/-- What the dispatch of a request segment leaves of filing. -/
theorem dispatch_request_filing {it : Item} {r : SegRef} (h : it.ref = .request r) :
    (dispatch e d it j).lines = j.lines ∧ (dispatch e d it j).flushes = j.flushes := by
  obtain ⟨-, -, -, hl, hf⟩ := dispatch_onward (e := e) (j := j) (d := d) it
  rw [hl, hf, Jukebox.assigned, h]
  exact ⟨rfl, rfl⟩

/-- A dispatch makes no drive idle, and its own drive is so no more (R52). -/
theorem dispatch_idle {it : Item} {x : Fin 4} (h : (dispatch e d it j).idle x = true) : j.idle x = true ∧ x ≠ d := by
  have ho := dispatch_onward (e := e) (j := j) (d := d) it
  obtain ⟨hr, -, hk, hf, -, hs⟩ := ho.drives x
  have hi : (j.assigned d it).idle x = true := by
    have ha : (j.assigned d it).awaitsInsert x = true → (dispatch e d it j).awaitsInsert x = true := ho.awaits x
    have hw : ((j.assigned d it).drive x).work.isNone = ((dispatch e d it j).drive x).work.isNone := by
      rw [← Option.isNone_map (f := Work.ref), ← hr, Option.isNone_map]
    simp only [Jukebox.idle, Jukebox.inventoryRuns, ho.inventory, hk, hf, ← hw, Bool.and_eq_true, Bool.or_eq_true,
      Bool.not_eq_true', decide_eq_true_eq] at h ⊢
    obtain ⟨⟨⟨⟨⟨h1, h2⟩, h3⟩, h4⟩, h5⟩, h6⟩ := h
    refine ⟨⟨⟨⟨⟨h1, Bool.eq_false_iff.2 fun hc => ?_⟩, h3⟩, h4⟩, h5⟩, ?_⟩
    · rw [ha hc] at h2; cases h2
    · obtain hs | hs | hs := hs
      · rwa [hs] at h6
      · rw [hs] at h6; simp at h6
      · rw [hs] at h6; simp at h6
  have hd : x ≠ d := by
    rintro rfl
    simp [Jukebox.idle, Jukebox.assigned] at hi
  refine ⟨?_, hd⟩
  have hx : (j.assigned d it).drive x = (takeFromList it.ref { j with lastTier := it.level.tier }).drive x :=
    onDrive_drive_ne _ hd _
  have ho : (j.assigned d it).orders = j.orders := takeFromList_orders it.ref
  have hp : (j.assigned d it).picker = j.picker := takeFromList_picker it.ref
  unfold Jukebox.idle Jukebox.inventoryRuns Jukebox.awaitsInsert Jukebox.orderOf at hi ⊢
  rw [hx, ho, hp] at hi
  obtain h | h := takeFromList_drive (j := { j with lastTier := it.level.tier }) it.ref x <;> rw [h] at hi <;> exact hi

end ops
end Sys2Proof.Machine
end

section
/-! The settings of service: the ranking of the levels, the completeness of a sweep, and SET SERVICE (R47 to R50, R55, R56,
R175). -/

namespace Sys2Proof.Machine

/-! ## The levels a ranking holds (R47 to R49) -/

theorem backOrder_perm (n : Nat) : (backOrder n).Perm [.staff, .write, .flush] := by
  unfold backOrder
  split <;> decide

theorem baseRanking_perm (t : Settings) (last : Tier) :
    (baseRanking t last).Perm [.express, .counter, .staff, .write, .flush] := by
  unfold baseRanking
  dsimp only
  split
  · exact (backOrder_perm _).append_left _
  · exact List.perm_append_comm.trans ((backOrder_perm _).append_left _)

/-- With promotion or without it, a ranking holds each level once. -/
theorem ranking_perm (t : Settings) (last : Tier) (free : Nat) :
    (ranking t last free).Perm [.express, .counter, .staff, .write, .flush] := by
  unfold ranking
  split
  · have hp := ((baseRanking_perm t last).filter fun l => l != .express && l != .flush).append_left [.express, .flush]
    exact hp.trans (by decide)
  · exact baseRanking_perm t last

/-- With dispatch enable on, every enabled level can be dispatched (R50). -/
theorem mem_dispatchable {e : Env} {j : Jukebox} {l : Level} (hd : e.settings.dispatch = true)
    (hl : e.settings.enables l = true) : l ∈ dispatchable e j := by
  rw [dispatchable, if_pos hd, List.mem_filter]
  exact ⟨(ranking_perm _ _ _).mem_iff.2 (by cases l <;> decide), hl⟩

/-! ## The completeness of a sweep (R56) -/

section sweep
variable {e : Env} {j : Jukebox}

theorem choose_mem {n : Nat} {ds : List (Fin 4)} {d : Fin 4} (h : j.choose n ds = some d) : d ∈ ds := by
  unfold Jukebox.choose at h
  simp only [Option.or_eq_some_iff] at h
  obtain h | ⟨-, h | ⟨-, h | ⟨-, h⟩⟩⟩ := h
  · exact List.mem_of_find?_eq_some h
  · exact List.mem_of_find?_eq_some h
  · exact List.mem_of_find?_eq_some h
  · exact leastBy_mem h

theorem leastBy_eq_none {α : Type} {key : α → Nat} {l : List α} (h : leastBy key l = none) : l = [] := by
  cases l with
  | nil => rfl
  | cons x l =>
    unfold leastBy at h
    split at h
    · cases h
    · split at h <;> cases h

theorem choose_eq_none {n : Nat} {ds : List (Fin 4)} (h : j.choose n ds = none) : ds = [] := by
  unfold Jukebox.choose at h
  simp only [Option.or_eq_none_iff] at h
  obtain ⟨-, -, -, h⟩ := h
  exact leastBy_eq_none h

theorem mem_allDrives (d : Fin 4) : d ∈ allDrives := by revert d; decide

theorem mem_candidates {n : Nat} {d : Fin 4} :
    d ∈ j.candidates n ↔ (j.freeFor n d && j.eligible n d) = true := by
  simp only [Jukebox.candidates, List.mem_filter, mem_allDrives, true_and]

/-- A sweep places a segment on an idle drive. -/
theorem sweepItem_idle {d : Fin 4} {it : Item} (h : sweepItem e j = some (d, it)) : j.idle d = true := by
  obtain ⟨l, -, h⟩ := List.exists_of_findSome?_eq_some h
  obtain ⟨x, -, h⟩ := List.exists_of_findSome?_eq_some h
  obtain ⟨y, hy, he⟩ := Option.map_eq_some_iff.1 h
  cases he
  have hf := mem_candidates.1 (choose_mem hy)
  simp only [Jukebox.freeFor, Bool.and_eq_true] at hf
  exact hf.1.1

/-- A sweep with nothing to place: no drive is free for an eligible segment of a level that can be dispatched. -/
theorem not_free_of_sweepItem_none (h : sweepItem e j = none) {l : Level} (hl : l ∈ dispatchable e j) {it : Item}
    (hi : it ∈ j.queued l) (d : Fin 4) : (j.freeFor it.target d && j.eligible it.target d) = false := by
  have h1 := List.findSome?_eq_none_iff.1 h l hl
  have h2 := choose_eq_none (Option.map_eq_none_iff.1 (List.findSome?_eq_none_iff.1 h1 it hi))
  rw [← Bool.not_eq_true, ← mem_candidates, h2]
  exact List.not_mem_nil

/-- A dispatch to an idle drive leaves fewer idle drives. -/
theorem dispatch_fewer_idle {d : Fin 4} {it : Item} (h : j.idle d = true) :
    (allDrives.filter (dispatch e d it j).idle).length < (allDrives.filter j.idle).length := by
  have hs : (allDrives.filter (dispatch e d it j).idle).Sublist ((allDrives.filter j.idle).filter (· ≠ d)) := by
    rw [List.filter_filter]
    refine List.monotone_filter_right _ fun x hx => ?_
    obtain ⟨h1, h2⟩ := dispatch_idle hx
    simp [h1, h2]
  refine hs.length_le.trans_lt ?_
  have hd : d ∈ allDrives.filter j.idle := List.mem_filter.2 ⟨mem_allDrives d, h⟩
  exact List.length_filter_lt_length_iff_exists.2 ⟨d, hd, by simp⟩

/-- After as many placements as there are idle drives no drive is left free that could take a waiting segment (R56). -/
theorem sweepN_complete {n : Nat} (hn : (allDrives.filter j.idle).length ≤ n) (hd : e.settings.dispatch = true) {l : Level}
    (hl : e.settings.enables l = true) {it : Item} (hi : it ∈ (sweepN e n j).queued l) (d : Fin 4) :
    ((sweepN e n j).freeFor it.target d && (sweepN e n j).eligible it.target d) = false := by
  induction n generalizing j with
  | zero =>
    have h0 : j.idle d = false := by
      have := List.filter_eq_nil_iff.1 (List.eq_nil_of_length_eq_zero (Nat.le_zero.1 hn)) d (mem_allDrives d)
      simpa using this
    show ((j.idle d && _) && _) = false
    rw [h0]; rfl
  | succ n ih =>
    unfold sweepN at hi ⊢
    split at hi
    · next y x hx =>
      have hlt := dispatch_fewer_idle (e := e) (it := x) (sweepItem_idle hx)
      exact ih (by omega) hi
    · next hx => exact not_free_of_sweepItem_none hx (mem_dispatchable hd hl) hi d

theorem sweep_complete (hd : e.settings.dispatch = true) {l : Level} (hl : e.settings.enables l = true) {it : Item}
    (hi : it ∈ (sweep e j).queued l) (d : Fin 4) :
    ((sweep e j).freeFor it.target d && (sweep e j).eligible it.target d) = false :=
  sweepN_complete (List.length_filter_le _ _) hd hl hi d

/-- With no request and no flush segment every list is empty (R51). -/
theorem queued_of_noWork (h : j.NoWork) (l : Level) : j.queued l = [] := by
  obtain ⟨ht, hf⟩ := h
  cases l <;> simp [Jukebox.queued, ht, hf]

/-- With no work waiting a sweep places nothing. -/
theorem sweep_of_noWork (h : j.NoWork) : sweep e j = j := by
  have hs : sweepItem e j = none := List.findSome?_eq_none_iff.2 fun l _ => by rw [queued_of_noWork h]; rfl
  unfold sweep sweepN
  rw [hs]

end sweep

/-! ## A control row that no lock level freezes -/

/-- A command of the table that no lock level freezes runs when a member of the control set sends it (R171). -/
theorem exec_of_permitted {c : Instr} {src : Src} {k : Cmd} (hc : c.asCmd = some (src, k)) (hk : cmdUnknown k = false)
    (hf : cmdFormatOk k = true) (hz : cmdFrozenFrom k = none) {s : State} (h : s.MayCommand src) :
    exec c s = .next (s.ran src k) := by
  obtain ⟨hp, hm⟩ := h
  rw [exec_eq_gated hc hk hf hp, State.gated, hz, if_neg (by rw [hm]; decide), if_neg (by simp)]

/-! ## SET SERVICE (R50, R175) -/

section service
variable {s : State} {src : Src} {mask tier back : Byte} {dis pre auto : Bool}

/-- The settings SET SERVICE writes, as R175 lists them. -/
def Settings.serviced (t : Settings) (mask tier back : Byte) (dis pre auto : Bool) : Settings :=
  { t with
    levelMask := BitVec.ofNat 5 mask.toNat, dispatch := dis
    tierCode := if tier.toNat = 3 then 0 else tier.toNat
    backCode := if 5 < back.toNat then 0 else back.toNat, preempt := pre, autoResume := auto }

theorem serviceSettings_eq (t : Settings) :
    serviceSettings mask (yesNo dis) tier back (yesNo pre) (yesNo auto) t = t.serviced mask tier back dis pre auto := by
  simp only [serviceSettings, flag_yesNo]
  rfl

theorem noPreemption_serviced (t : Settings) :
    (t.serviced mask tier back dis pre auto).noPreemption = !(dis && pre && mask.getLsbD 0) := by
  have hm : (t.serviced mask tier back dis pre auto).enables .express = mask.getLsbD 0 := by
    simp [Settings.serviced, Settings.enables, Level.code, BitVec.getLsbD]
  rw [Settings.noPreemption, hm]
  cases dis <;> cases pre <;> cases mask.getLsbD 0 <;> rfl

/-- The new settings open work when dispatch enable or the enable of a level comes on (R50, log entry 34). -/
theorem opensWork_iff (old new : Settings) : opensWork old new = true ↔
    (old.dispatch = false ∧ new.dispatch = true) ∨ ∃ l, old.enables l = false ∧ new.enables l = true := by
  have hl : ∀ l : Level, l ∈ [Level.express, .counter, .staff, .write, .flush] := by intro l; cases l <;> decide
  simp only [opensWork, Bool.or_eq_true, Bool.and_eq_true, Bool.not_eq_true', List.any_eq_true, hl, true_and]

/-- The jukebox SET SERVICE leaves, from the one it finds: preemptions are withdrawn, then it sweeps (R50). -/
def servedJukebox (s : State) (new : Settings) (keep : Bool) (j : Jukebox) : Jukebox :=
  let k := if keep then j else withdrawAll j
  if opensWork s.settings new then sweep { s.env with settings := new } k else k

/-- With no sweep, or nothing for it to place, the drives are all that changes. -/
theorem servedJukebox_of_noSweep {new : Settings} {j : Jukebox} (keep : Bool)
    (h : opensWork s.settings new = false ∨ j.NoWork) :
    servedJukebox s new keep j =
      { j with drives := if keep then j.drives else j.drives.map fun x => { x with preempt := none } } := by
  have hk : (if keep then j else withdrawAll j) =
      { j with drives := if keep then j.drives else j.drives.map fun x => { x with preempt := none } } := by
    cases keep <;> rfl
  unfold servedJukebox
  dsimp only
  rw [hk]
  by_cases ho : opensWork s.settings new = true
  · rw [if_pos ho]
    exact sweep_of_noWork (h.resolve_left (by simp [ho]))
  · rw [if_neg ho]

/-- A SET SERVICE that opens work leaves no drive free for an eligible segment of an enabled level (R50, R56). -/
theorem servedJukebox_complete {new : Settings} {keep : Bool} {j : Jukebox} (ho : opensWork s.settings new = true)
    (hd : new.dispatch = true) {l : Level} (hl : new.enables l = true) {it : Item}
    (hi : it ∈ (servedJukebox s new keep j).queued l) (d : Fin 4) :
    ((servedJukebox s new keep j).freeFor it.target d && (servedJukebox s new keep j).eligible it.target d) = false := by
  have hs : servedJukebox s new keep j =
      sweep { s.env with settings := new } (if keep then j else withdrawAll j) := if_pos ho
  rw [hs] at hi ⊢
  exact sweep_complete hd hl hi d

/-- What SET SERVICE leaves: the new settings and the jukebox after the withdrawals and the sweep. -/
theorem exec_setService (h : s.MayCommand src) (hm : mask.toNat < 32) (ht : tier.toNat ≤ 3) (hb : back.toNat ≤ 7) :
    exec (.setService src mask (yesNo dis) tier back (yesNo pre) (yesNo auto)) s =
      .next (({ s with
        settings := s.settings.serviced mask tier back dis pre auto
        jb := servedJukebox s (s.settings.serviced mask tier back dis pre auto) (dis && pre && mask.getLsbD 0)
          (s.fresh.fetchRecord src).jb } : State).respond src 0x20
            (if tier.toNat = 3 ∨ 5 < back.toNat then .clamped else .done) .none) := by
  rw [exec_of_permitted (k := .setService mask (yesNo dis) tier back (yesNo pre) (yesNo auto)) rfl rfl
    (by simp [cmdFormatOk, hm, ht, hb]) rfl h]
  congr 1
  have hrun : runCmd (.setService mask (yesNo dis) tier back (yesNo pre) (yesNo auto)) (s.fresh.fetchRecord src) =
      .ok ({ s.fresh.fetchRecord src with
        settings := s.settings.serviced mask tier back dis pre auto
        jb := servedJukebox s (s.settings.serviced mask tier back dis pre auto) (dis && pre && mask.getLsbD 0)
          (s.fresh.fetchRecord src).jb }, decide (tier.toNat = 3 ∨ 5 < back.toNat)) := by
    show runSetService mask (yesNo dis) tier back (yesNo pre) (yesNo auto) (s.fresh.fetchRecord src) = _
    unfold runSetService
    simp only [serviceSettings_eq, noPreemption_serviced, Bool.decide_or, servedJukebox]
    cases dis && pre && mask.getLsbD 0 <;> rfl
  unfold State.ran
  rw [hrun]
  simp only [decide_eq_true_eq]
  rfl

end service

/-- Settles O23: the withdrawals touch nothing but the drives, and the sweep places nothing where no work waits and is complete
where some does. -/
theorem setServiceWritesSixSettings : Obligations.SetServiceWritesSixSettings := by
  intro s src mask tier back dis pre auto h hm ht hb new o opens drives
  have hopens : opensWork s.settings new = true ↔ opens := opensWork_iff _ _
  refine ⟨_, exec_setService h hm ht hb, rfl, rfl, rfl, rfl, ?_, fun hn => ?_, fun ho hd l hl it hi d => ?_⟩
  · simp [State.respond, Response.after, o]
  · have hs := servedJukebox_of_noSweep (s := s) (new := new) (j := (s.fresh.fetchRecord src).jb)
      (dis && pre && mask.getLsbD 0) (hn.imp_left fun hno => by rwa [← Bool.not_eq_true, hopens])
    show ({ s with settings := new, jb := servedJukebox s new _ _ } : State).respond src 0x20 o .none = _
    rw [hs]
    rfl
  · exact servedJukebox_complete (s := s) (new := new) (keep := dis && pre && mask.getLsbD 0)
      (j := (s.fresh.fetchRecord src).jb) (hopens.2 ho) hd hl hi d

end Sys2Proof.Machine
end

section
/-! The choice of a drive: the least and the greatest of the drives by a key, and the victim of a preemption (R56, R59, R60). -/

namespace Sys2Proof.Machine

/-! ## The first drive with the least or the greatest key -/

theorem allDrives_sorted : allDrives.Pairwise (· < ·) := by decide

/-- A drive in its place among those that pass a test: the ones before it have lower numbers. -/
theorem allDrives_filter_split {p : Fin 4 → Bool} {d : Fin 4} (hd : p d = true) :
    ∃ a b, allDrives.filter p = a ++ d :: b ∧ (∀ y ∈ a, p y = true ∧ y < d) ∧ ∀ y ∈ b, p y = true := by
  obtain ⟨a, b, hl⟩ := List.append_of_mem (List.mem_filter.2 ⟨mem_allDrives d, hd⟩)
  have hp : ∀ y ∈ a ++ d :: b, p y = true := fun y hy => (List.mem_filter.1 (hl ▸ hy)).2
  have hs := allDrives_sorted.filter p
  rw [hl, List.pairwise_append] at hs
  obtain ⟨-, -, hs⟩ := hs
  exact ⟨a, b, hl, fun y hy => ⟨hp y (by simp [hy]), hs y hy d (by simp)⟩, fun y hy => hp y (by simp [hy])⟩

/-- The lowest-numbered drive with the least key among those that pass a test. -/
theorem leastBy_allDrives {key : Fin 4 → Nat} {p : Fin 4 → Bool} {d : Fin 4} (hd : p d = true)
    (h : ∀ x, p x = true → key d < key x ∨ (key d = key x ∧ d ≤ x)) : leastBy key (allDrives.filter p) = some d := by
  obtain ⟨a, b, hl, ha, hb⟩ := allDrives_filter_split hd
  rw [hl]
  refine leastBy_append_cons (fun y hy => ?_) fun y hy => ?_
  · obtain ⟨hp, hlt⟩ := ha y hy
    exact (h y hp).resolve_right fun hc => absurd hc.2 (not_le.2 hlt)
  · exact (h y (hb y hy)).elim le_of_lt fun hc => hc.1.le

theorem find?_allDrives {p q : Fin 4 → Bool} {d : Fin 4} (hd : p d = true) (hq : q d = true)
    (h : ∀ x, p x = true → q x = true → d ≤ x) : (allDrives.filter p).find? q = some d := by
  obtain ⟨a, b, hl, ha, -⟩ := allDrives_filter_split hd
  rw [hl, List.find?_append, List.find?_cons_of_pos hq, List.find?_eq_none.2]
  · rfl
  · intro y hy hc
    obtain ⟨hp, hlt⟩ := ha y hy
    exact absurd (h y hp hc) (not_le.2 hlt)

theorem greatestBy_mem {α : Type} {key : α → Nat} {l : List α} {y : α} (h : greatestBy key l = some y) : y ∈ l := by
  induction l generalizing y with
  | nil => cases h
  | cons x l ih =>
    unfold greatestBy at h
    split at h
    · cases h; exact List.mem_cons_self
    · next z hz =>
      split at h
      · cases h; exact List.mem_cons_self
      · cases h; exact List.mem_cons_of_mem _ (ih hz)

/-- The greatest element is the first one that none has a greater key than. -/
theorem greatestBy_append_cons {α : Type} {key : α → Nat} {l r : List α} {x : α} (hl : ∀ y ∈ l, key y < key x)
    (hr : ∀ y ∈ r, key y ≤ key x) : greatestBy key (l ++ x :: r) = some x := by
  induction l with
  | nil =>
    show greatestBy key (x :: r) = some x
    unfold greatestBy
    split
    · rfl
    · next y hy => exact if_pos (hr y (greatestBy_mem hy))
  | cons z l ih =>
    have hz := hl z List.mem_cons_self
    show greatestBy key (z :: (l ++ x :: r)) = some x
    rw [greatestBy, ih fun y hy => hl y (List.mem_cons_of_mem _ hy)]
    exact if_neg (by omega)

/-- The lowest-numbered drive with the greatest key among those that pass a test. -/
theorem greatestBy_allDrives {key : Fin 4 → Nat} {p : Fin 4 → Bool} {d : Fin 4} (hd : p d = true)
    (h : ∀ x, p x = true → key x < key d ∨ (key x = key d ∧ d ≤ x)) : greatestBy key (allDrives.filter p) = some d := by
  obtain ⟨a, b, hl, ha, hb⟩ := allDrives_filter_split hd
  rw [hl]
  refine greatestBy_append_cons (fun y hy => ?_) fun y hy => ?_
  · obtain ⟨hp, hlt⟩ := ha y hy
    exact (h y hp).resolve_right fun hc => absurd hc.2 (not_le.2 hlt)
  · exact (h y (hb y hy)).elim le_of_lt fun hc => hc.1.le

/-! ## Eligible drives and victims after a change of one drive (R53, R60) -/

section eligible
variable {j : Jukebox} {d y : Fin 4} {n : Nat} {f : Drive → Drive}

/-- A platter is bound to the same drives when no drive's parked context changes (R53, R62). -/
theorem boundElsewhere_onDrive (hf : (f (j.drive d)).parked = (j.drive d).parked) (p : Nat) :
    (j.onDrive d f).boundElsewhere p y = j.boundElsewhere p y := by
  have hp : ∀ x, ((j.onDrive d f).drive x).parked = (j.drive x).parked := fun x => by
    rw [onDrive_drive]; split
    · next e => rw [hf, e]
    · rfl
  simp only [Jukebox.boundElsewhere, Jukebox.boundTo, hp, onDrive_orders]

/-- A change of one drive that keeps its parked context and its mounted surface keeps what every drive is eligible for. -/
theorem eligible_onDrive (hf : (f (j.drive d)).parked = (j.drive d).parked)
    (hm : (f (j.drive d)).mounted = (j.drive d).mounted) : (j.onDrive d f).eligible n y = j.eligible n y := by
  have hy : ((j.onDrive d f).drive y).mounted = (j.drive y).mounted := by
    rw [onDrive_drive]; split
    · next e => rw [hm, e]
    · rfl
  simp only [Jukebox.eligible, Jukebox.reachable, onDrive_platter, boundElsewhere_onDrive hf, hy]

/-- A change of one drive that keeps its parked context keeps the other drives that are victims. -/
theorem victim_onDrive_ne (hf : (f (j.drive d)).parked = (j.drive d).parked)
    (hm : (f (j.drive d)).mounted = (j.drive d).mounted) (hy : y ≠ d) : (j.onDrive d f).victim n y = j.victim n y := by
  simp only [Jukebox.victim, eligible_onDrive hf hm, onDrive_drive_ne j hy]

/-- A drive that is not in TRANSFER, or has its offline flag set, is no victim (R60). -/
theorem not_victim (h : (j.drive d).state ≠ .transfer ∨ (j.drive d).offlineFlag = true) : j.victim n d = false := by
  obtain h | h := h <;> simp [Jukebox.victim, h]

end eligible

/-! ## Preemption considered (R60) -/

section preempt
variable {e : Env} {j : Jukebox} {r : SegRef}

/-- An item of level EXPRESS may displace others under the settings (R50, R60). -/
def Item.mayPreempt (t : Settings) (it : Item) : Prop :=
  it.level = .express ∧ t.preempt = true ∧ t.dispatch = true ∧ t.enables .express = true

/-- The victim with the most blocks left has the segment pending (R60). -/
theorem considerPreempt_of_victim {it : Item} {v : Fin 4} (hi : j.itemOf (.request r) = some it)
    (hm : it.mayPreempt e.settings) (hv : j.victim it.target v = true)
    (hb : ∀ y, j.victim it.target y = true → (j.drive y).left < (j.drive v).left ∨
      ((j.drive y).left = (j.drive v).left ∧ v ≤ y)) :
    considerPreempt e r j = j.onDrive v fun x => { x with preempt := some r } := by
  obtain ⟨h1, h2, h3, h4⟩ := hm
  have hg := greatestBy_allDrives (key := fun d => (j.drive d).left) hv hb
  unfold considerPreempt
  simp only [hi, h1, h2, h3, h4, hg, decide_true, Bool.and_self, if_true]

/-- Nothing is pending when the segment may displace none, or none is a victim (R60). -/
theorem considerPreempt_of_none (h : ∀ it, j.itemOf (.request r) = some it → it.mayPreempt e.settings →
    ∀ y, j.victim it.target y = false) : considerPreempt e r j = j := by
  unfold considerPreempt
  split
  · next it hi =>
    split
    · next hc =>
      simp only [Bool.and_eq_true, decide_eq_true_eq] at hc
      obtain ⟨⟨⟨h1, h2⟩, h3⟩, h4⟩ := hc
      have hn : (allDrives.filter fun d => j.victim it.target d) = [] :=
        List.filter_eq_nil_iff.2 fun y _ => by rw [h it hi ⟨h1, h2, h3, h4⟩ y]; decide
      rw [hn]
      rfl
    · rfl
  · rfl

/-- A drive that is no victim of any item is left alone. -/
theorem considerPreempt_drive_of_not_victim {d : Fin 4} (h : ∀ n, j.victim n d = false) :
    (considerPreempt e r j).drive d = j.drive d := by
  unfold considerPreempt
  split
  · next it _ =>
    split
    · split
      · next v hv =>
        have hv := (List.mem_filter.1 (greatestBy_mem hv)).2
        refine onDrive_drive_ne j ?_ _
        rintro rfl
        rw [h] at hv; cases hv
      · rfl
    · rfl
  · rfl

end preempt

end Sys2Proof.Machine
end

section
/-! TAKE OFFLINE and RETURN DRIVE (R74, R164). -/

namespace Sys2Proof.Machine

/-! ## Commands of the jukebox alone -/

section jukebox
variable {s : State} {src : Src} {c : Instr} {k : Cmd} {g : Env → Jukebox → Except Reason Jukebox}

/-- A command of the table that no lock level freezes and whose fields pass the format checks does `g` to the jukebox. -/
structure ActsOnJukebox (k : Cmd) (g : Env → Jukebox → Except Reason Jukebox) : Prop where
  known : cmdUnknown k = false
  format : cmdFormatOk k = true
  unfrozen : cmdFrozenFrom k = none
  runs : ∀ s, runCmd k s = onJukebox s (g s.env s.jb)

/-- The jukebox a control-window command finds: its record has been fetched (R169). -/
def State.asked (s : State) (src : Src) : Jukebox := { s.jb with bus := [.fetch src.initiator src.tag 469762048 1] }

theorem ActsOnJukebox.ran (h : ActsOnJukebox k g) {r : Except Reason Jukebox} (hr : g s.env (s.asked src) = r) :
    runCmd k (s.fresh.fetchRecord src) = onJukebox (s.fresh.fetchRecord src) r := by
  rw [← hr]; exact h.runs _

theorem ActsOnJukebox.exec_error (h : ActsOnJukebox k g) (hc : c.asCmd = some (src, k)) (hs : s.MayCommand src) {r : Reason}
    (hr : g s.env (s.asked src) = .error r) : exec c s = .next (s.answered src (cmdCode k) .refused r) := by
  rw [exec_of_permitted hc h.known h.format h.unfrozen hs, ran_of_error (h.ran hr)]

theorem ActsOnJukebox.exec_ok (h : ActsOnJukebox k g) (hc : c.asCmd = some (src, k)) (hs : s.MayCommand src) {j : Jukebox}
    (hr : g s.env (s.asked src) = .ok j) :
    exec c s = .next (({ s with jb := j } : State).respond src (cmdCode k) .done .none) := by
  rw [exec_of_permitted hc h.known h.format h.unfrozen hs, State.ran, h.ran hr]
  rfl

/-- A command that makes one change of the jukebox, whatever stands on the front bus. -/
theorem ActsOnJukebox.exec_done (h : ActsOnJukebox k g) (hc : c.asCmd = some (src, k)) (hs : s.MayCommand src)
    {f : Jukebox → Jukebox} (hr : g s.env (s.asked src) = .ok { f s.jb with bus := (s.asked src).bus }) :
    exec c s = .next (s.jbDone src (cmdCode k) f) := by
  rw [h.exec_ok hc hs hr]
  rfl

theorem driveOf_driveByte (d : Fin 4) : driveOf (driveByte d) = some d := by revert d; decide

theorem takeOffline_acts (d : Fin 4) : ActsOnJukebox (.takeOffline (driveByte d) 0) fun e => takeOffline e d :=
  ⟨rfl, rfl, rfl, fun s => by
    show runTakeOffline _ _ s = _
    unfold runTakeOffline
    rw [driveOf_driveByte]
    rfl⟩

theorem returnDrive_acts (d : Fin 4) : ActsOnJukebox (.takeOffline (driveByte d) 1) fun e => returnDrive e d :=
  ⟨rfl, rfl, rfl, fun s => by
    show runTakeOffline _ _ s = _
    unfold runTakeOffline
    rw [driveOf_driveByte]
    rfl⟩

/-- A drive number above 3 names no drive (R177). -/
theorem takeOffline_acts_badValue {b : Byte} (hb : 4 ≤ b.toNat) {x : Byte} (hx : isFlag x = true) :
    ActsOnJukebox (.takeOffline b x) fun _ _ => .error .badValue :=
  ⟨rfl, hx, rfl, fun s => by
    show runTakeOffline _ _ s = _
    unfold runTakeOffline
    rw [driveOf, dif_neg (by omega)]
    rfl⟩

end jukebox

/-! ## Leaving service (R74, R164) -/

/-- The record of a drive as TAKE OFFLINE sets its offline flag (R164). -/
def Drive.flag (x : Drive) : Drive := { x with offlineFlag := true, dwell := none, preempt := none }

/-- A drive that TAKE OFFLINE does not refuse (R164). -/
def Drive.inService (x : Drive) : Prop := x.state ≠ .offline ∧ x.offlineFlag = false ∧ x.state ≠ .fault

section offline
variable {e : Env} {j : Jukebox} {d : Fin 4}

/-- The jukebox with the offline flag set, the EXPRESS segment that was pending considered once more (R61, R164). -/
def Jukebox.withFlag (e : Env) (d : Fin 4) (j : Jukebox) : Jukebox :=
  match (j.drive d).preempt with
  | some r => considerPreempt e r (j.onDrive d Drive.flag)
  | none => j.onDrive d Drive.flag

theorem takeOffline_refused (h : ¬ (j.drive d).inService) : takeOffline e d j = .error .state := by
  refine if_pos ?_
  by_contra hc
  simp only [Bool.or_eq_true, decide_eq_true_eq, not_or, Bool.not_eq_true] at hc
  obtain ⟨⟨hs, hf⟩, hn⟩ := hc
  exact h ⟨hs, hf, hn⟩

theorem takeOffline_of_inService (h : (j.drive d).inService) : takeOffline e d j =
    .ok (if (j.drive d).work.isNone && (j.drive d).parked.isNone then leaveService e d (j.withFlag e d) else j.withFlag e d) := by
  obtain ⟨h1, h2, h3⟩ := h
  refine if_neg ?_
  simp [h1, h2, h3]

theorem withFlag_drive : (j.withFlag e d).drive d = (j.drive d).flag := by
  unfold Jukebox.withFlag
  split
  · rw [considerPreempt_drive_of_not_victim fun n => not_victim (.inr (by rw [onDrive_drive_self]; rfl)), onDrive_drive_self]
  · exact onDrive_drive_self ..

/-- With no preemption pending, or preemption off, nothing is pending anew. -/
theorem withFlag_of_quiet (h : (j.drive d).preempt = none ∨ e.settings.preempt = false) :
    j.withFlag e d = j.onDrive d Drive.flag := by
  unfold Jukebox.withFlag
  split
  · next r hr =>
    refine considerPreempt_of_none fun it _ hm => ?_
    obtain ⟨-, hp, -⟩ := hm
    rw [h.resolve_left (by simp [hr])] at hp; cases hp
  · rfl

/-- The victim in place of the drive taken offline has the segment pending (R61). -/
theorem withFlag_of_victim {r : SegRef} {it : Item} {v : Fin 4} (hp : (j.drive d).preempt = some r)
    (hi : j.itemOf (.request r) = some it) (hm : it.mayPreempt e.settings) (hvd : v ≠ d) (hv : j.victim it.target v = true)
    (hb : ∀ y, y ≠ d → j.victim it.target y = true → (j.drive y).left < (j.drive v).left ∨
      ((j.drive y).left = (j.drive v).left ∧ v ≤ y)) :
    j.withFlag e d = (j.onDrive d Drive.flag).onDrive v fun x => { x with preempt := some r } := by
  have hvic : ∀ y, y ≠ d → (j.onDrive d Drive.flag).victim it.target y = j.victim it.target y :=
    fun y hy => victim_onDrive_ne rfl rfl hy
  have hd : (j.onDrive d Drive.flag).victim it.target d = false := not_victim (.inr (by rw [onDrive_drive_self]; rfl))
  unfold Jukebox.withFlag
  rw [hp]
  refine considerPreempt_of_victim hi hm ((hvic v hvd).trans hv) fun y hy => ?_
  have hyd : y ≠ d := by rintro rfl; rw [hd] at hy; cases hy
  rw [onDrive_drive_ne j hyd, onDrive_drive_ne j hvd]
  exact hb y hyd (by rwa [hvic y hyd] at hy)

theorem orderOf_isSome_iff : (j.orderOf d).isSome = true ↔ ∃ o ∈ j.orders, o.drive = d := by
  rw [Jukebox.orderOf, List.find?_isSome]
  simp only [decide_eq_true_eq]

theorem orderOf_eq_none_iff : j.orderOf d = none ↔ ∀ o ∈ j.orders, o.drive ≠ d := by
  rw [Jukebox.orderOf, List.find?_eq_none]
  simp only [decide_eq_true_eq]

/-- The order of a drive keeps an EMPTY one from going OFFLINE yet: the RETURN HOME of a cancellation or of R74, or an order with
its incoming platter (log entries 16 and 26). -/
def Jukebox.waits (j : Jukebox) (d : Fin 4) : Prop :=
  ∃ o, j.orderOf d = some o ∧ (o.cancelled = true ∨ o.forOffline = true ∨ o.kind ≠ .returnHome)

/-- The cases in which a drive without a segment keeps its flag for later (R74, R164). -/
theorem leaveService_stays (h : ((j.drive d).state ≠ .empty ∧ (j.drive d).state ≠ .ready) ∨
    ((j.drive d).state = .empty ∧ j.waits d) ∨
    ((j.drive d).state = .ready ∧ ((∃ o ∈ j.orders, o.drive = d) ∨ j.picker.inventory ≠ none))) :
    leaveService e d j = j := by
  unfold leaveService
  split
  · next hs =>
    obtain ⟨o, ho, hw⟩ : j.waits d := by simpa [hs] using h
    refine if_pos ?_
    rw [ho]
    simpa [or_assoc] using hw
  · next hs =>
    refine if_pos ?_
    rw [Bool.or_eq_true, orderOf_isSome_iff]
    refine (show _ ∨ _ by simpa [hs] using h).symm.imp_left fun hi => ?_
    rwa [Jukebox.inventoryRuns, Option.isSome_iff_ne_none]
  · rfl

theorem leaveService_of_empty (hs : (j.drive d).state = .empty) (hw : ¬ j.waits d) : leaveService e d j = goOffline d j := by
  unfold leaveService
  rw [hs]
  refine if_neg fun hc => hw ?_
  obtain ⟨o, ho, hc⟩ := (Option.any_eq_true _ _).1 hc
  exact ⟨o, ho, by simpa [or_assoc] using hc⟩

theorem leaveService_of_ready (hs : (j.drive d).state = .ready) (hn : j.orderOf d = none) (hi : j.picker.inventory = none) :
    leaveService e d j = placeReturnHome e d true j := by
  unfold leaveService
  rw [hs]
  exact if_neg (by simp [Jukebox.inventoryRuns, hn, hi])

/-- A drive that leaves service has no dwell and no preemption pending if it had none, and is OFFLINE or keeps its flag. -/
theorem leaveService_drive (hd : (j.drive d).dwell = none) (hp : (j.drive d).preempt = none)
    (hf : (j.drive d).offlineFlag = true) :
    ((leaveService e d j).drive d).preempt = none ∧ ((leaveService e d j).drive d).dwell = none ∧
      (((leaveService e d j).drive d).offlineFlag = true ∨ ((leaveService e d j).drive d).state = .offline) := by
  unfold leaveService
  split
  · split
    · exact ⟨hp, hd, .inl hf⟩
    · rw [goOffline, onDrive_drive_self]
      exact ⟨hp, hd, .inr rfl⟩
  · split
    · exact ⟨hp, hd, .inl hf⟩
    · next hc =>
      have hn : j.orderOf d = none := by
        simp only [Bool.or_eq_true, not_or, Bool.not_eq_true, Option.isSome_eq_false_iff, Option.isNone_iff_eq_none] at hc
        exact hc.2
      have ho := (placeReturnHome_onward (e := e) (x := true) hn).drives d
      exact ⟨ho.preempt.trans hp, ho.dwell.elim (·.trans hd) id, .inl (ho.flagged.trans hf)⟩
  · exact ⟨hp, hd, .inl hf⟩

/-! ## The RETURN HOME of R74 -/

/-- An order that is not express joins the tail of the queue (R77). -/
theorem insertOrder_of_not_express {o : Order} (h : o.express = false) (l : List Order) : insertOrder o l = l ++ [o] := by
  induction l with
  | nil => rfl
  | cons x l ih => rw [insertOrder, h, ih]; rfl

/-- A picker that is not PARKED starts no order (R77). -/
theorem startNext_of_not_parked (h : j.picker.state ≠ .parked) : startNext e j = j := if_neg h

/-- The RETURN HOME that R74 places for drive `d` with platter `p`, in a state (log entries 16 and 36). -/
def homeOrder (d : Fin 4) (p : Nat) (st : OrderState) : Order :=
  ⟨d, .returnHome, some p, none, none, false, 1, st, true, false⟩

theorem placeReturnHome_queued {p : Nat} (hp : (j.drive d).platter = some p) (hk : j.picker.state ≠ .parked) :
    placeReturnHome e d true j = { j with orders := j.orders ++ [homeOrder d p .queued] } := by
  have hj : placeReturnHome e d true j = { j with orders := insertOrder (homeOrder d p .queued) j.orders } := by
    unfold placeReturnHome
    rw [hp]
    exact startNext_of_not_parked hk
  rw [hj, insertOrder_of_not_express rfl]

/-- The record of a drive that begins to unload (R73). -/
def Drive.unloads (now : Nat) (x : Drive) : Drive :=
  { x with state := .unloading, mounted := none, dwell := none, limit := some (now + 10000) }

/-- Two changes of a drive that make the same of its record are the same change of the jukebox. -/
theorem onDrive_congr {f g : Drive → Drive} (h : f (j.drive d) = g (j.drive d)) : j.onDrive d f = j.onDrive d g := by
  unfold Jukebox.onDrive; rw [h]

theorem beginUnload_of_inside (hs : (j.drive d).state ≠ .fault) (hp : (j.drive d).platter ≠ none) :
    beginUnload e d j = j.onDrive d (Drive.unloads e.now) :=
  onDrive_congr (if_neg (by simp [hs, hp]))

/-- The first order of the queue starts with step 1 on a PARKED picker (R77). -/
theorem startNext_of_step1 {o : Order} {rest : List Order} (hk : j.picker.state = .parked) (ho : j.orders = o :: rest)
    (h1 : o.firstStep = 1) :
    startNext e j = checkStep1 e (beginUnload e o.drive
      { j with
        orders := { o with state := .running, step := 1 } :: rest
        picker := { j.picker with state := .busy, stepLimit := some (e.now + 15000) } }) := by
  unfold startNext
  rw [if_pos hk]
  simp only [ho, h1]
  rfl

/-- Step 1 with the platter not at the mouth: a picker that stands at the drive waits without a limit (R78). -/
theorem checkStep1_of_inside {o : Order} {rest : List Order} (ho : j.orders = o :: rest) (hr : o.state = .running)
    (h1 : o.step = 1) (he : (j.drive o.drive).ejected = false) :
    checkStep1 e j = if j.picker.position = some (.drive o.drive) ∧ j.picker.midway = false then
      j.onPicker fun p => { p with stepLimit := none } else j := by
  have hro : j.runningOrder = some o := by rw [Jukebox.runningOrder, ho]; simp [hr]
  unfold checkStep1
  simp only [hro, h1, he, Picker.standsAt, decide_true, Bool.true_and, Bool.and_eq_true, decide_eq_true_eq, Bool.not_eq_true',
    Bool.false_eq_true, if_false]

/-- An order whose drive has its platter inside starts on a PARKED picker: the drive unloads, and the picker's move to it runs
under the step limit, or it stands there and waits without one (R73, R77, R78, R82). -/
theorem startNext_of_inside {o : Order} {rest : List Order} (hk : j.picker.state = .parked) (ho : j.orders = o :: rest)
    (h1 : o.firstStep = 1) (hs : (j.drive o.drive).state ≠ .fault) (hp : (j.drive o.drive).platter ≠ none)
    (he : (j.drive o.drive).ejected = false) :
    startNext e j = { j.onDrive o.drive (Drive.unloads e.now) with
      orders := { o with state := .running, step := 1 } :: rest
      picker := { j.picker with
        state := .busy
        stepLimit := if j.picker.position = some (.drive o.drive) ∧ j.picker.midway = false then none
          else some (e.now + 15000) } } := by
  refine (startNext_of_step1 hk ho h1).trans
    (Eq.trans (congrArg (checkStep1 e) (beginUnload_of_inside hs hp))
      (Eq.trans (checkStep1_of_inside (o := { o with state := .running, step := 1 }) rfl rfl rfl
        ((congrArg Drive.ejected (onDrive_drive_self ..)).trans he)) ?_))
  by_cases hst : j.picker.position = some (.drive o.drive) ∧ j.picker.midway = false
  · refine Eq.trans (if_pos hst) ?_
    rw [if_pos hst]; rfl
  · refine Eq.trans (if_neg hst) ?_
    rw [if_neg hst]; rfl

theorem placeReturnHome_started {p : Nat} (hp : (j.drive d).platter = some p) (hk : j.picker.state = .parked)
    (ho : j.orders = []) (hs : (j.drive d).state = .ready) (he : (j.drive d).ejected = false) :
    placeReturnHome e d true j = { j.onDrive d (Drive.unloads e.now) with
      orders := [homeOrder d p .running]
      picker := { j.picker with
        state := .busy
        stepLimit := if j.picker.position = some (.drive d) ∧ j.picker.midway = false then none
          else some (e.now + 15000) } } := by
  have hj : placeReturnHome e d true j = startNext e { j with orders := [homeOrder d p .queued] } := by
    unfold placeReturnHome joinOrders
    rw [hp, ho]
    rfl
  have hsd : (j.drive d).state ≠ .fault := by rw [hs]; decide
  have hpd : (j.drive d).platter ≠ none := by rw [hp]; exact Option.some_ne_none p
  exact hj.trans (startNext_of_inside (j := { j with orders := [homeOrder d p .queued] }) (o := homeOrder d p .queued) hk rfl
    rfl hsd hpd he)

/-! ## TAKE OFFLINE case by case (R164) -/

/-- A drive taken offline has no dwell and no preemption pending, and its flag is set or it is OFFLINE. -/
theorem takeOffline_drive (h : (j.drive d).inService) :
    ∃ k, takeOffline e d j = .ok k ∧ (k.drive d).preempt = none ∧ (k.drive d).dwell = none ∧
      ((k.drive d).offlineFlag = true ∨ (k.drive d).state = .offline) := by
  have hd := withFlag_drive (e := e) (j := j) (d := d)
  refine ⟨_, takeOffline_of_inService h, ?_⟩
  split
  · exact leaveService_drive (by rw [hd]; rfl) (by rw [hd]; rfl) (by rw [hd]; rfl)
  · rw [hd]
    exact ⟨rfl, rfl, .inl rfl⟩

/-- A drive with a segment goes on under its flag, whoever has the pending preemption then. -/
theorem takeOffline_of_work (h : (j.drive d).inService) (hw : (j.drive d).work ≠ none) :
    takeOffline e d j = .ok (j.withFlag e d) := by
  rw [takeOffline_of_inService h, if_neg (by simp [hw])]

/-- A drive with nothing in hand, and no preemption to consider, leaves service. -/
theorem takeOffline_of_no_work (h : (j.drive d).inService) (hq : (j.drive d).preempt = none ∨ e.settings.preempt = false)
    (hw : (j.drive d).work = none) (hp : (j.drive d).parked = none) :
    takeOffline e d j = .ok (leaveService e d (j.onDrive d Drive.flag)) := by
  rw [takeOffline_of_inService h, withFlag_of_quiet hq, if_pos (by simp [hw, hp])]

/-- The drives that only get their flag. -/
theorem takeOffline_stays (h : (j.drive d).inService) (hq : (j.drive d).preempt = none ∨ e.settings.preempt = false)
    (hc : (j.drive d).work ≠ none ∨ (j.drive d).parked ≠ none ∨
      ((j.drive d).state ≠ .empty ∧ (j.drive d).state ≠ .ready) ∨ ((j.drive d).state = .empty ∧ j.waits d) ∨
      ((j.drive d).state = .ready ∧ ((∃ o ∈ j.orders, o.drive = d) ∨ j.picker.inventory ≠ none))) :
    takeOffline e d j = .ok (j.onDrive d Drive.flag) := by
  rw [takeOffline_of_inService h, withFlag_of_quiet hq]
  split
  · next hn =>
    simp only [Bool.and_eq_true, Option.isNone_iff_eq_none] at hn
    obtain ⟨hw, hp⟩ := hn
    have hs : ((j.onDrive d Drive.flag).drive d).state = (j.drive d).state := by rw [onDrive_drive_self]; rfl
    refine congrArg _ (leaveService_stays ?_)
    rw [hs]
    exact (hc.resolve_left (not_not.2 hw)).resolve_left (not_not.2 hp)
  · rfl

/-- One change of a drive after another. -/
theorem onDrive_onDrive (f g : Drive → Drive) : (j.onDrive d f).onDrive d g = j.onDrive d (g ∘ f) := by
  unfold Jukebox.onDrive
  simp [Jukebox.drive]

/-- An EMPTY drive goes OFFLINE at once. -/
theorem takeOffline_of_empty (h : (j.drive d).inService) (hq : (j.drive d).preempt = none ∨ e.settings.preempt = false)
    (hw : (j.drive d).work = none) (hp : (j.drive d).parked = none) (hs : (j.drive d).state = .empty) (hn : ¬ j.waits d) :
    takeOffline e d j = .ok (j.onDrive d fun x => { x with state := .offline, dwell := none, preempt := none }) := by
  have ⟨_, hf, _⟩ := h
  rw [takeOffline_of_no_work h hq hw hp]
  refine congrArg _ ((leaveService_of_empty (j := j.onDrive d Drive.flag) (by rw [onDrive_drive_self]; exact hs) hn).trans ?_)
  rw [goOffline, onDrive_onDrive]
  refine onDrive_congr ?_
  simp only [Function.comp, Drive.flag, hf]

/-- A READY drive that no order names places a RETURN HOME. -/
theorem takeOffline_of_ready (h : (j.drive d).inService) (hq : (j.drive d).preempt = none ∨ e.settings.preempt = false)
    (hw : (j.drive d).work = none) (hp : (j.drive d).parked = none) (hs : (j.drive d).state = .ready)
    (hn : j.orderOf d = none) (hi : j.picker.inventory = none) :
    takeOffline e d j = .ok (placeReturnHome e d true (j.onDrive d Drive.flag)) := by
  rw [takeOffline_of_no_work h hq hw hp]
  exact congrArg _ (leaveService_of_ready (by rw [onDrive_drive_self]; exact hs) hn hi)

/-- That RETURN HOME waits, or starts at once. -/
theorem home_queued {p : Nat} (hx : (j.drive d).platter = some p) (hk : j.picker.state ≠ .parked) :
    placeReturnHome e d true (j.onDrive d Drive.flag) =
      { j.onDrive d Drive.flag with orders := j.orders ++ [homeOrder d p .queued] } :=
  placeReturnHome_queued (j := j.onDrive d Drive.flag) (by rw [onDrive_drive_self]; exact hx) hk

theorem home_started {p : Nat} (hx : (j.drive d).platter = some p) (hk : j.picker.state = .parked)
    (ho : j.orders = []) (hs : (j.drive d).state = .ready) (he : (j.drive d).ejected = false) :
    placeReturnHome e d true (j.onDrive d Drive.flag) = { j.onDrive d fun x => x.flag.unloads e.now with
      orders := [homeOrder d p .running]
      picker := { j.picker with
        state := .busy
        stepLimit := if j.picker.position = some (.drive d) ∧ j.picker.midway = false then none
          else some (e.now + 15000) } } := by
  rw [placeReturnHome_started (j := j.onDrive d Drive.flag) (p := p) (by rw [onDrive_drive_self]; exact hx) hk ho
    (by rw [onDrive_drive_self]; exact hs) (by rw [onDrive_drive_self]; exact he), onDrive_onDrive]
  rfl

/-! ## RETURN DRIVE (R74) -/

theorem returnDrive_refused (h : (j.drive d).state ≠ .offline) : returnDrive e d j = .error .state :=
  if_pos (bne_iff_ne.2 h)

/-- A full pull finds nothing where no work waits (R55). -/
theorem pull_of_noWork (h : j.NoWork) : pull e d j = j := by
  unfold pull
  split
  · rw [List.findSome?_eq_none_iff.2 fun l _ => by rw [Jukebox.offer, queued_of_noWork h]; rfl]
  · rfl

theorem examineHead_of_no_request (h : j.table = []) : examineHead e j = j := by
  rw [examineHead, h]; rfl

/-- An OFFLINE drive with nothing to do becomes EMPTY (R74). -/
theorem returnDrive_of_noWork (hs : (j.drive d).state = .offline) (hw : (j.drive d).work = none)
    (hp : (j.drive d).parked = none) (hn : j.orderOf d = none) (h : j.NoWork) :
    returnDrive e d j = .ok (j.onDrive d fun x => { x with state := .empty, offlineFlag := false }) := by
  have hf : driveFree e d false (j.onDrive d fun x => { x with state := .empty, offlineFlag := false }) =
      j.onDrive d fun x => { x with state := .empty, offlineFlag := false } := by
    unfold driveFree
    simp only [onDrive_drive_self, hw, hp, Jukebox.awaitsInsert, show (j.onDrive d _).orderOf d = none from hn]
    exact pull_of_noWork h
  unfold returnDrive
  rw [if_neg (by simp [hs])]
  dsimp only
  rw [hf]
  exact congrArg Except.ok (examineHead_of_no_request h.1)

end offline

/-- Settles O44: TAKE OFFLINE sets the flag and considers the pending preemption, and a drive with nothing in hand leaves service
by its state; RETURN DRIVE finds no work. -/
theorem offlineAndReturn : Obligations.OfflineAndReturn := by
  intro s src h
  refine ⟨fun b hb c hc => ?_, fun d => ?_⟩
  · simp only [List.mem_cons, List.not_mem_nil, or_false] at hc
    obtain rfl | rfl := hc
    · exact (takeOffline_acts_badValue hb (x := 0) rfl).exec_error rfl h rfl
    · exact (takeOffline_acts_badValue hb (x := 1) rfl).exec_error rfl h rfl
  intro x ok named waits flagged takes
  have hnamed : ¬ named → s.jb.orderOf d = none := fun hn => orderOf_eq_none_iff.2 fun o ho hd => hn ⟨o, ho, hd⟩
  have done {f : Jukebox → Jukebox} (hf : takeOffline s.env d (s.asked src) = .ok { f s.jb with bus := (s.asked src).bus }) :
      takes f := (takeOffline_acts d).exec_done rfl h hf
  refine ⟨fun hok => ?_, fun hok => ?_, fun hok hq => ⟨fun hc => ?_, fun hw hp hn hs => ?_, fun p hw hp hn hs hx hi => ?_⟩,
    fun r it v hok hw hp hi hx hpre hdis hen hvd hv hb => ?_, fun hs => ?_, fun hs hw hp hn hwork => ?_⟩
  · exact (takeOffline_acts d).exec_error rfl h (takeOffline_refused hok)
  · obtain ⟨k, hk, hd⟩ := takeOffline_drive (e := s.env) (j := s.asked src) hok
    refine ⟨_, (takeOffline_acts d).exec_ok rfl h hk, ?_, hd⟩
    simp [State.respond, Response.after]
  · exact done (takeOffline_stays (j := s.asked src) hok hq hc)
  · exact done (takeOffline_of_empty (e := s.env) (j := s.asked src) hok hq hw hp hs hn)
  · have hr := takeOffline_of_ready (e := s.env) (j := s.asked src) hok hq hw hp hs (hnamed hn) hi
    refine ⟨fun hk => done (hr.trans (congrArg _ (home_queued (j := s.asked src) hx hk))),
      fun hk ho he => done (hr.trans (congrArg _ (home_started (j := s.asked src) hx hk ho hs he)))⟩
  · exact done ((takeOffline_of_work (j := s.asked src) hok hw).trans
      (congrArg _ (withFlag_of_victim hp hi ⟨hx, hpre, hdis, hen⟩ hvd hv hb)))
  · exact (returnDrive_acts d).exec_error rfl h (returnDrive_refused hs)
  · exact (returnDrive_acts d).exec_done rfl h (returnDrive_of_noWork hs hw hp (hnamed hn) hwork)

end Sys2Proof.Machine
end

section
/-! The ranking of the levels, and the push of an accepted READ of one drive segment (R47 to R49, R56, R59, R60). -/

namespace Sys2Proof.Machine

/-! ## The order of the levels (R47 to R49) -/

/-- The two tiers, one above the other (R47, R48). -/
def tiered (counterHigh : Bool) (back : List Level) : List Level :=
  if counterHigh then [.express, .counter] ++ back else back ++ [.express, .counter]

/-- A ranking with EXPRESS first and FLUSH second (R49). -/
def promoted (r : List Level) : List Level := [.express, .flush] ++ r.filter fun l => l != .express && l != .flush

theorem ranking_of_plenty {t : Settings} {last : Tier} {free : Nat} (h : t.lowWater < free) :
    ranking t last free = tiered (counterFirst t last) (backOrder t.backCode) := if_neg (Nat.not_le.2 h)

theorem ranking_of_low {t : Settings} {last : Tier} {free : Nat} (h : free ≤ t.lowWater) :
    ranking t last free = promoted (tiered (counterFirst t last) (backOrder t.backCode)) := if_pos h

/-- The counter tier is the upper one with tier code 0, and with 2 when its turn has come (R47, R48). -/
theorem counterFirst_iff {t : Settings} (h : t.tierCode ≤ 2) (last : Tier) :
    counterFirst t last = true ↔ t.tierCode = 0 ∨ (t.tierCode = 2 ∧ last = .backOffice) := by
  obtain h | h | h : t.tierCode = 0 ∨ t.tierCode = 1 ∨ t.tierCode = 2 := by omega
  all_goals simp [counterFirst, h]

/-- The order of the levels in two tiers. -/
theorem tiered_order : ∀ (k : Fin 6) (b : Bool), let back := backOrder k; let r := tiered b back
    r.idxOf Level.express < r.idxOf .counter ∧ (r.filter fun l => l != .express && l != .counter) = back ∧
      ∀ l ∈ back, (b = true → r.idxOf Level.counter < r.idxOf l) ∧ (b = false → r.idxOf l < r.idxOf .express) := by
  decide

/-- The order of the levels in two tiers, promoted. -/
theorem promoted_order : ∀ (k : Fin 6) (b : Bool), let back := backOrder k; let r := promoted (tiered b back)
    r.idxOf Level.express < r.idxOf .counter ∧ r.take 2 = [.express, .flush] ∧
      (r.filter fun l => l != .express && l != .flush && l != .counter) = (back.filter fun l => l != .flush) ∧
      ∀ l ∈ [Level.staff, .write],
        (b = true → r.idxOf Level.counter < r.idxOf l) ∧ (b = false → r.idxOf l < r.idxOf .counter) := by
  decide

/-! ## The drive a push chooses (R56) -/

section choice
variable {j : Jukebox} {n : Nat} {d : Fin 4}

/-- The place of a drive in the order of R56 for a target. -/
def Jukebox.place (j : Jukebox) (n : Nat) (d : Fin 4) : Nat :=
  if (j.drive d).mounted = some n then 0 else if (j.drive d).platter = some (n / 2) then 1
  else if (j.drive d).state = .empty then 2 else 3

/-- A drive has been unused longer than another, or as long with a lower number. -/
def Jukebox.longerUnused (j : Jukebox) (d x : Fin 4) : Prop :=
  (j.drive d).lastUse < (j.drive x).lastUse ∨ ((j.drive d).lastUse = (j.drive x).lastUse ∧ d ≤ x)

/-- A drive comes before another in the choice of a push, or is that drive. -/
def Jukebox.before (j : Jukebox) (n : Nat) (d x : Fin 4) : Prop :=
  j.place n d < j.place n x ∨
    (j.place n d = j.place n x ∧ if j.place n d = 3 then j.longerUnused d x else d ≤ x)

theorem place_le_three (x : Fin 4) : j.place n x ≤ 3 := by
  unfold Jukebox.place
  split_ifs <;> omega

theorem place_le_zero_iff {x : Fin 4} : j.place n x ≤ 0 ↔ (j.drive x).mounted = some n := by
  unfold Jukebox.place
  split_ifs <;> simp_all

theorem place_le_one_iff {x : Fin 4} :
    j.place n x ≤ 1 ↔ (j.drive x).mounted = some n ∨ (j.drive x).platter = some (platterOf n) := by
  unfold Jukebox.place platterOf
  split_ifs <;> simp_all

theorem place_le_two_iff {x : Fin 4} : j.place n x ≤ 2 ↔
    (j.drive x).mounted = some n ∨ (j.drive x).platter = some (platterOf n) ∨ (j.drive x).state = .empty := by
  unfold Jukebox.place platterOf
  split_ifs <;> simp_all

/-- A test that holds at place `k`, and nowhere after it, finds the drive at `k` that comes before all others. -/
theorem find?_of_place_eq {p q : Fin 4 → Bool} {k : Nat} (hq : ∀ x, q x = true → j.place n x ≤ k)
    (h3 : k ≠ 3) (hd : p d = true) (hb : ∀ x, p x = true → j.before n d x) (h : j.place n d = k) (hk : q d = true) :
    (allDrives.filter p).find? q = some d := by
  subst h
  refine find?_allDrives hd hk fun x hx hqx => ?_
  obtain hlt | ⟨-, hle⟩ := hb x hx
  · exact absurd (hq x hqx) (Nat.not_le.2 hlt)
  · rwa [if_neg h3] at hle

/-- A test that holds nowhere after place `k` finds none where the first drive stands after it. -/
theorem find?_of_place_gt {p q : Fin 4 → Bool} {k : Nat} (hq : ∀ x, q x = true → j.place n x ≤ k)
    (hb : ∀ x, p x = true → j.before n d x) (h : k < j.place n d) : (allDrives.filter p).find? q = none := by
  refine List.find?_eq_none.2 fun x hx hqx => ?_
  have hle := hq x hqx
  obtain hlt | ⟨heq, -⟩ := hb x (List.mem_filter.1 hx).2 <;> omega

/-- A push chooses the candidate that comes before all others. -/
theorem choose_of_before {p : Fin 4 → Bool} (hd : p d = true) (hb : ∀ x, p x = true → j.before n d x) :
    j.choose n (allDrives.filter p) = some d := by
  have h0 : ∀ x, decide ((j.drive x).mounted = some n) = true → j.place n x ≤ 0 :=
    fun x hx => place_le_zero_iff.2 (of_decide_eq_true hx)
  have h1 : ∀ x, decide ((j.drive x).platter = some (platterOf n)) = true → j.place n x ≤ 1 :=
    fun x hx => place_le_one_iff.2 (.inr (of_decide_eq_true hx))
  have h2 : ∀ x, decide ((j.drive x).state = .empty) = true → j.place n x ≤ 2 :=
    fun x hx => place_le_two_iff.2 (.inr (.inr (of_decide_eq_true hx)))
  have h3 := place_le_three (j := j) (n := n) d
  unfold Jukebox.choose
  obtain h | h | h | h : j.place n d = 0 ∨ j.place n d = 1 ∨ j.place n d = 2 ∨ j.place n d = 3 := by omega
  · have hm := place_le_zero_iff.1 h.le
    rw [find?_of_place_eq h0 (by decide) hd hb h (decide_eq_true hm), Option.some_or]
  · have hp := (place_le_one_iff.1 h.le).resolve_left fun hm => by have := place_le_zero_iff.2 hm; omega
    rw [find?_of_place_gt h0 hb (by omega), find?_of_place_eq h1 (by decide) hd hb h (decide_eq_true hp), Option.none_or,
      Option.some_or]
  · have hs : (j.drive d).state = .empty := by
      obtain hm | hp | hs := place_le_two_iff.1 h.le
      · have := place_le_zero_iff.2 hm; omega
      · have := place_le_one_iff.2 (.inr hp); omega
      · exact hs
    rw [find?_of_place_gt h0 hb (by omega), find?_of_place_gt h1 hb (by omega),
      find?_of_place_eq h2 (by decide) hd hb h (decide_eq_true hs), Option.none_or, Option.none_or, Option.some_or]
  · rw [find?_of_place_gt h0 hb (by omega), find?_of_place_gt h1 hb (by omega), find?_of_place_gt h2 hb (by omega),
      Option.none_or, Option.none_or, Option.none_or]
    refine leastBy_allDrives hd fun x hx => ?_
    obtain hlt | ⟨-, hl⟩ := hb x hx
    · have := place_le_three (j := j) (n := n) x; omega
    · rwa [if_pos h] at hl

end choice

/-! ## What a push does (R56, R59, R60) -/

section push
variable {e : Env} {j : Jukebox} {w : WorkRef} {it : Item} {d : Fin 4}

theorem push_of_choose (hi : j.itemOf w = some it) (hl : e.settings.enables it.level = true)
    (hd : e.settings.dispatch = true) (hc : j.choose it.target (j.candidates it.target) = some d) :
    push e w j = dispatch e d it j := by
  unfold push
  simp only [hi, hl, hd, hc, Bool.and_self, if_true]

/-- With no candidate, a segment that is not EXPRESS waits (R56). -/
theorem push_of_waits (hi : j.itemOf w = some it) (hc : j.candidates it.target = []) (hx : it.level ≠ .express) :
    push e w j = j := by
  unfold push
  simp only [hi, hc, hx, Jukebox.choose, List.find?_nil, leastBy, Option.or_self, if_false, ite_self]

/-- With no candidate, an EXPRESS segment cuts the dwell of a drive (R59). -/
theorem push_of_cut (hi : j.itemOf w = some it) (hl : e.settings.enables it.level = true)
    (hd : e.settings.dispatch = true) (hc : j.candidates it.target = []) (hx : it.level = .express)
    (hcut : j.cutDrive it.target = some d) : push e w j = dispatch e d it j := by
  unfold push
  simp only [hi, hl, hd, hc, hcut, Jukebox.choose, List.find?_nil, leastBy, Option.or_self, Bool.and_self, if_true, if_pos hx]

/-- With no dwell to cut, preemption is considered (R60). -/
theorem push_of_no_cut {r : SegRef} (hi : j.itemOf (.request r) = some it) (hl : e.settings.enables it.level = true)
    (hd : e.settings.dispatch = true) (hc : j.candidates it.target = []) (hx : it.level = .express)
    (hcut : j.cutDrive it.target = none) : push e (.request r) j = considerPreempt e r j := by
  unfold push
  simp only [hi, hl, hd, hc, hcut, Jukebox.choose, List.find?_nil, leastBy, Option.or_self, Bool.and_self, if_true, if_pos hx]

end push

/-! ## The acceptance of a READ of one drive segment -/

section accepted
variable {s : State} {src : Src}

theorem firstHolding_eq_none {l : List (Bool × Status)} (h : firstHolding l = none) : ∀ c ∈ l, c.1 = false := by
  induction l with
  | nil => nofun
  | cons c l ih =>
    rw [firstHolding] at h
    split at h
    · cases h
    · next hc =>
      simp only [List.mem_cons, forall_eq_or_imp]
      exact ⟨by simpa using hc, ih h⟩

/-- An accepted command's initiator and tag are those of no request in the table (R24, R25). -/
theorem request_eq_none_of_accepted {k : Kind} {lba n : Nat} (h : firstHolding (acceptanceChecks s src k lba n) = none) :
    s.jb.request src.initiator src.tag = none := by
  have hd := firstHolding_eq_none h
    (s.jb.table.any fun q => q.initiator = src.initiator && q.tag = src.tag, .duplicateTag) (by simp [acceptanceChecks])
  rwa [← request_isSome, Option.isSome_eq_false_iff, Option.isNone_iff_eq_none] at hd

/-- The jukebox with a new request in the last place of the table (R26). -/
def Jukebox.joined (j : Jukebox) (q : Request) : Jukebox := { j with table := j.table ++ [q] }

/-- A new request of the table is the one its initiator and tag name. -/
theorem request_joined {j : Jukebox} {q : Request} (h : j.request q.initiator q.tag = none) :
    (j.joined q).request q.initiator q.tag = some q := by
  unfold Jukebox.request Jukebox.joined at *
  rw [List.find?_append, h]
  simp

/-- A SEALED or DIRECT unit is read by a drive (R30). -/
theorem newSegment_of_drive {e : Env} {j : Jukebox} {x : Nat × Nat × Nat}
    (h : (e.map.resolve x.1 x.2.1).htype = .sealed ∨ (e.map.resolve x.1 x.2.1).htype = .direct) :
    (newSegment e j .read x).kind = .drive := by
  unfold newSegment
  obtain h | h := h <;> simp [Jukebox.inRam, h]

/-- A segment at its acceptance (R29). -/
theorem newSegment_fresh (e : Env) (j : Jukebox) (k : Kind) (x : Nat × Nat × Nat) :
    (newSegment e j k x).state = .queued ∧ (newSegment e j k x).current = x.2.2 ∧ (newSegment e j k x).surface = x.1 ∧
      (newSegment e j k x).readSide = (e.map.resolve x.1 x.2.1).readRoute := by
  unfold newSegment
  cases k <;> dsimp only <;> split <;> exact ⟨rfl, rfl, rfl, rfl⟩

/-- The item of the one segment of a new request of drive segments (R51). -/
theorem items_of_single {q : Request} {g : Segment} (hs : q.state = .active) (hg : q.segments = [g]) (hk : g.kind = .drive)
    (hq : g.state = .queued) :
    q.items = [⟨.request ⟨q.initiator, q.tag, 0⟩, q.level, g.target q.kind, g.current⟩] := by
  unfold Request.items
  simp [hs, hg, hk, hq]

/-- A request ACTIVE at its acceptance whose one segment a drive serves joins its list (R31, R51). -/
theorem takeIn_of_single {e : Env} {j : Jukebox} {q : Request} {g : Segment} (hs : q.state = .active) (hg : q.segments = [g])
    (hk : g.kind = .drive) :
    takeIn e q j = joinList e ⟨q.initiator, q.tag, 0⟩ (j.joined q) := by
  unfold takeIn
  simp [Jukebox.joined, hs, hg, Request.refs, handOn, hk]

/-- A read segment whose platter can be reached passes its test (R100). -/
theorem testReach_of_reachable {j : Jukebox} {r : SegRef} {q : Request} {g : Segment} (h : j.segment r = some (q, g))
    (hr : j.reachable (platterOf (g.target q.kind)) = true) : testReach r j = j := by
  unfold testReach
  simp [h, hr]

/-- A request of one drive segment is pushed as it joins its list, when its platter can be reached (R51, R56). -/
theorem takeIn_pushes {e : Env} {j : Jukebox} {q : Request} {g : Segment} (hn : j.request q.initiator q.tag = none)
    (hs : q.state = .active) (hg : q.segments = [g]) (hk : g.kind = .drive) (hq : g.state = .queued)
    (hr : j.reachable (platterOf (g.target q.kind)) = true) :
    takeIn e q j = push e (.request ⟨q.initiator, q.tag, 0⟩) (j.joined q) ∧
      (j.joined q).itemOf (.request ⟨q.initiator, q.tag, 0⟩) =
        some ⟨.request ⟨q.initiator, q.tag, 0⟩, q.level, g.target q.kind, g.current⟩ ∧
      (j.joined q).segment ⟨q.initiator, q.tag, 0⟩ = some (q, g) := by
  have hlast := request_joined hn
  have hseg : (j.joined q).segment ⟨q.initiator, q.tag, 0⟩ = some (q, g) := by
    unfold Jukebox.segment
    rw [hlast, Option.bind_some, hg]
    rfl
  refine ⟨?_, ?_, hseg⟩
  · rw [takeIn_of_single hs hg hk, joinList, testReach_of_reachable hseg hr]
  · unfold Jukebox.itemOf
    dsimp only
    rw [hlast, Option.bind_some, items_of_single hs hg hk hq]
    simp

/-- An accepted READ of one drive segment whose platter can be reached is pushed (R31, R51, R56). -/
theorem exec_read_pushed {lba n target first : Nat} (hp : s.powered = true) (hw : lba / 67108864 ≠ 7)
    (hc : firstHolding (acceptanceChecks s src .read lba n) = none)
    (hd : divide (lba % 67108864) n = [(target, first, n)])
    (ht : (s.map.resolve target first).htype = .sealed ∨ (s.map.resolve target first).htype = .direct)
    (hr : (s.map.resolve target first).readRoute = .primary) (hreach : s.jb.reachable (target / 2) = true) :
    ∃ q g, exec (.read src lba n) s = .next { s with
        fee := s.fee.enter, jb := push s.env (.request ⟨src.initiator, src.tag, 0⟩) (s.fresh.jb.joined q) } ∧
      (s.fresh.jb.joined q).itemOf (.request ⟨src.initiator, src.tag, 0⟩) =
        some ⟨.request ⟨src.initiator, src.tag, 0⟩, (s.map.window (lba / 67108864)).level, target, n⟩ ∧
      (s.fresh.jb.joined q).segment ⟨src.initiator, src.tag, 0⟩ = some (q, g) ∧ g.state = .queued := by
  obtain ⟨data, he⟩ := exec_accepted [] hp hw hc
  have hseg : (newRequest s.env s.fee.generation s.fresh.jb src .read lba n data).segments =
      [newSegment s.env s.fresh.jb .read (target, first, n)] := congrArg (List.map (newSegment s.env s.fresh.jb .read)) hd
  have hk := newSegment_of_drive (e := s.env) (j := s.fresh.jb) (x := (target, first, n)) ht
  obtain ⟨hst, hcur, hsur, hside⟩ := newSegment_fresh s.env s.fresh.jb .read (target, first, n)
  have htarget : (newSegment s.env s.fresh.jb .read (target, first, n)).target .read = target := by
    unfold Segment.target
    rw [hside, show (s.env.map.resolve target first).readRoute = .primary from hr]
    exact hsur
  have hreach' : s.fresh.jb.reachable
      (platterOf ((newSegment s.env s.fresh.jb .read (target, first, n)).target .read)) = true := by
    rw [htarget]; exact hreach
  obtain ⟨htake, hitem, hsegment⟩ := takeIn_pushes (e := s.env) (j := s.fresh.jb)
    (q := newRequest s.env s.fee.generation s.fresh.jb src .read lba n data) (request_eq_none_of_accepted hc) rfl hseg hk hst
    hreach'
  refine ⟨_, _, he.trans (congrArg (fun j => Host.Outcome.next { s with fee := s.fee.enter, jb := j }) htake),
    hitem.trans (congrArg some ?_), hsegment, hst⟩
  show Item.mk _ _ ((newSegment s.env s.fresh.jb .read (target, first, n)).target .read) _ = _
  rw [htarget, hcur]
  rfl

end accepted

/-! ## The drives free for a segment, as the claim of O52 spells them (R52, R59, R60) -/

section free
variable {j : Jukebox} {n : Nat} {d : Fin 4}

theorem candidate_iff : (j.freeFor n d && j.eligible n d) = true ↔
    (j.idle d = true ∧ j.eligible n d = true) ∧ ((j.drive d).dwell = none ∨ (j.drive d).mounted = some n) := by
  simp only [Jukebox.freeFor, Bool.and_eq_true, Bool.or_eq_true, decide_eq_true_eq, Option.isNone_iff_eq_none]
  tauto

theorem victim_iff : j.victim n d = true ↔ (j.drive d).state = .transfer ∧
    (∃ v, (j.drive d).work = some v ∧ v.level.tier = .backOffice) ∧ (j.drive d).parked = none ∧
      (j.drive d).preempt = none ∧
      (j.drive d).offlineFlag = false ∧ j.eligible n d = true := by
  simp only [Jukebox.victim, Bool.and_eq_true, decide_eq_true_eq, Option.isNone_iff_eq_none, Option.any_eq_true,
    Bool.not_eq_true', and_assoc]

theorem candidates_eq_nil (h : ∀ d, ¬ (j.freeFor n d && j.eligible n d) = true) : j.candidates n = [] :=
  List.filter_eq_nil_iff.2 fun d _ => h d

/-- The express cut takes the drive longest unused among those that dwell (R59). -/
theorem cutDrive_of_longest (hd : j.idle d = true ∧ j.eligible n d = true) (hw : (j.drive d).dwell ≠ none)
    (hb : ∀ x, j.idle x = true ∧ j.eligible n x = true → (j.drive x).dwell ≠ none → j.longerUnused d x) :
    j.cutDrive n = some d := by
  refine leastBy_allDrives (by simpa [hd, Option.isSome_iff_ne_none] using hw) fun x hx => ?_
  simp only [Bool.and_eq_true, Option.isSome_iff_ne_none] at hx
  exact hb x ⟨hx.1.1, hx.2⟩ hx.1.2

theorem cutDrive_eq_none (h : ∀ d, j.idle d = true ∧ j.eligible n d = true → (j.drive d).dwell = none) :
    j.cutDrive n = none := by
  have hn : (allDrives.filter fun d => j.idle d && (j.drive d).dwell.isSome && j.eligible n d) = [] :=
    List.filter_eq_nil_iff.2 fun d _ hc => by
      simp only [Bool.and_eq_true, Option.isSome_iff_ne_none] at hc
      obtain ⟨⟨hi, hw⟩, he⟩ := hc
      exact hw (h d ⟨hi, he⟩)
  rw [Jukebox.cutDrive, hn]
  rfl

/-- The drive of a dispatch holds its segment and dwells no more. -/
theorem dispatch_holds {e : Env} {it : Item} : ∃ v, ((dispatch e d it j).drive d).work = some v ∧ v.ref = it.ref ∧
    ((dispatch e d it j).drive d).dwell = none := by
  obtain ⟨hr, hw, -⟩ := dispatch_drive_self (e := e) (j := j) (d := d) it
  obtain ⟨v, hv, he⟩ := Option.map_eq_some_iff.1 hr
  exact ⟨v, hv, he, hw⟩

end free

/-- Settles O52: the ranking by the finite table of its codes, the push by the choices of the model. -/
theorem rankingFollowsTheCodes : Obligations.RankingFollowsTheCodes := by
  refine ⟨fun t last free h => ?_, ?_⟩
  · intro r above back counterHigh
    obtain ⟨k, hk⟩ : ∃ k : Fin 6, t.backCode = k := ⟨⟨t.backCode, Nat.lt_succ_of_le h.back⟩, rfl⟩
    have hback : back = backOrder k := by
      simp only [back, hk]
      fin_cases k <;> rfl
    have hhigh : counterHigh ↔ counterFirst t last = true := (counterFirst_iff h.tier last).symm
    have hlow : ¬ counterHigh ↔ counterFirst t last = false := by rw [hhigh, Bool.not_eq_true]
    obtain ⟨hx, hb, ho⟩ := tiered_order k (counterFirst t last)
    obtain ⟨hx', hb', ho'⟩ := promoted_order k (counterFirst t last)
    refine ⟨ranking_perm t last free, ?_, fun hf => ?_, fun hf => ?_⟩
    · simp only [above, r]
      obtain hf | hf := Nat.lt_or_ge t.lowWater free
      · rwa [ranking_of_plenty hf, hk]
      · rwa [ranking_of_low hf, hk]
    · rw [hback, hlow, hhigh]
      simp only [above, r, ranking_of_plenty hf, hk]
      exact ⟨hb, ho⟩
    · rw [hback, hlow, hhigh]
      simp only [above, r, ranking_of_low hf, hk]
      exact ⟨hb', ho'⟩
  · intro s src lba n target first hp hw hc hd unit w level ht hr hdis hen hpres hheld r suits free place longerUnused victim
    have hreach : s.jb.reachable (target / 2) = true := by simp [Jukebox.reachable, hpres, hheld]
    obtain ⟨q, g, he, hi, hseg, hg⟩ := exec_read_pushed hp hw hc hd ht hr hreach
    have hnone : (∀ d, ¬ free d) → (s.fresh.jb.joined q).candidates target = [] :=
      fun hn => candidates_eq_nil fun d hd => hn d (candidate_iff.1 hd)
    refine ⟨_, he, fun d hf hb => ?_, fun hn hx => ⟨fun d hs hdw hb => ?_, fun hs hpre d hv hb => ?_⟩, fun hn hx => ?_⟩
    · have hch : (s.fresh.jb.joined q).choose target ((s.fresh.jb.joined q).candidates target) = some d :=
        choose_of_before (candidate_iff.2 hf) fun x hx => hb x (candidate_iff.1 hx)
      rw [show push s.env _ _ = _ from push_of_choose hi hen hdis hch]
      exact dispatch_holds
    · rw [show push s.env _ _ = _ from push_of_cut hi hen hdis (hnone hn) hx (cutDrive_of_longest hs hdw hb)]
      exact dispatch_holds
    · rw [show push s.env _ _ = _ from push_of_no_cut hi hen hdis (hnone hn) hx (cutDrive_eq_none hs),
        considerPreempt_of_victim hi ⟨hx, hpre, hdis, hx ▸ hen⟩ (victim_iff.2 hv) fun y hy => hb y (victim_iff.1 hy)]
      rfl
    · rw [show push s.env _ _ = _ from push_of_waits hi (hnone hn) hx]
      exact ⟨rfl, q, g, hseg, hg⟩

end Sys2Proof.Machine
end

section
/-! The bursts and verifies of a flush (R71, R72, R118 to R120), and the drive that lets it go (R57). -/

namespace Sys2Proof.Machine

/-- An event of the jukebox alone, given to a part with power. -/
theorem event_of_powered {s : State} {f : Env → Jukebox → Jukebox} {h : Jukebox → Jukebox} (hp : s.powered = true)
    (hf : f s.env s.fresh.jb = h s.fresh.jb) : s.event f = .next (s.withJb h) := by
  rw [State.event, take_of_powered hp, State.onJb, show f s.fresh.env s.fresh.jb = _ from hf]
  rfl

/-! ## The end of a segment with no other work (R57) -/

section ends
variable {e : Env} {j : Jukebox} {d : Fin 4}

theorem itemOf_request_of_no_request (h : j.table = []) (r : SegRef) : j.itemOf (.request r) = none := by
  simp [Jukebox.itemOf, Jukebox.request, h]

/-- No level that can be dispatched has a segment waiting. -/
def NothingWaits (e : Env) (j : Jukebox) : Prop := j.table = [] ∧ (j.flushes = [] ∨ e.settings.dispatch = false)

theorem restrictedPull_of_nothing (h : NothingWaits e j) :
    (dispatchable e j).findSome? (j.restrictedOffer d) = none := by
  obtain ⟨ht, hf | hd⟩ := h
  · exact List.findSome?_eq_none_iff.2 fun l _ => by rw [Jukebox.restrictedOffer, queued_of_noWork ⟨ht, hf⟩]; rfl
  · rw [dispatchable, hd]; rfl

/-- The record of a drive that has let its segment go and dwells until a moment (R57, R71). -/
def Drive.freed (until' : Nat) (x : Drive) : Drive :=
  { x with state := .ready, work := none, pass := none, left := 0, preempt := none, dwell := some until' }

/-- With nothing waiting and nothing else in hand, a drive whose segment ends dwells (R57). -/
theorem endWork_of_nothing (h : NothingWaits e j) (hp : (j.drive d).parked = none) (hf : (j.drive d).offlineFlag = false)
    (ho : ∀ o ∈ j.orders, o.drive ≠ d) (hw : 0 < e.settings.dwell) :
    endWork e d j = j.onDrive d (Drive.freed (e.now + e.settings.dwell)) := by
  have hpre : (release d j).preemptor d = none := by
    unfold Jukebox.preemptor
    cases ((release d j).drive d).preempt with
    | none => rfl
    | some r => rw [Option.bind_some, itemOf_request_of_no_request (j := release d j) h.1]; rfl
  have hord : j.orderOf d = none := orderOf_eq_none_iff.2 ho
  unfold endWork afterSegment
  rw [hpre]
  dsimp only
  unfold driveFree
  simp only [release, onDrive_onDrive, onDrive_drive_self, Function.comp, hp, hf, Jukebox.awaitsInsert,
    show (Jukebox.onDrive j d _).orderOf d = none from hord]
  unfold endOfSegment
  rw [restrictedPull_of_nothing (j := j.onDrive d _) h]
  dsimp
  rw [if_neg (Nat.pos_iff_ne_zero.1 hw), onDrive_onDrive]
  rfl

end ends

/-! ## A drive that holds a flush (R54, R118) -/

/-- Drive `d` holds a flush segment, in a pass, and the flush and its line stand in their tables. -/
structure Jukebox.Flushing (j : Jukebox) (d : Fin 4) (w : Work) (p : Pass) (f : Flush) (l : GatherLine) : Prop where
  work : (j.drive d).work = some w
  ref : w.ref = .flush f.surface f.line
  kept : w.dropped = none
  pass : (j.drive d).pass = some p
  flush : j.flush f.surface = some f
  line : j.line f.surface f.line = some l

section flush
variable {e : Env} {j : Jukebox} {d : Fin 4} {w : Work} {p : Pass} {f : Flush} {l : GatherLine}

theorem burstEnd_of_flushing (h : j.Flushing d w p f l) (hs : (j.drive d).state = .transfer)
    (media : List (Nat × MediaRead)) : burstEnd e d media j = flushBurstEnd e d f.surface f.line j := by
  unfold burstEnd
  simp only [hs, h.work, h.kept, h.ref]

/-- The record of a drive as a burst or verify ends (R71, R72). -/
def Drive.used (now : Nat) (x : Drive) : Drive := { x with lastUse := now }

theorem verifyEnd_of_flushing (h : j.Flushing d w p f l) (hs : (j.drive d).state = .verify) (passed : Bool) :
    verifyEnd e d passed j = flushVerifyEnd e d passed f p l.attempts (j.onDrive d (Drive.used e.now)) := by
  have hf : (j.onDrive d (Drive.used e.now)).flush f.surface = some f := h.flush
  have hl : (j.onDrive d (Drive.used e.now)).line f.surface f.line = some l := h.line
  unfold verifyEnd
  simp only [hs, h.work, h.kept, h.ref, h.pass]
  unfold Drive.used at *
  rw [hf, hl]

/-! ## Burst ends (R71, R118) -/

/-- The record of a drive whose pass has no blocks left (R71). -/
def Drive.verifies (now : Nat) (x : Drive) : Drive :=
  { x with state := .verify, left := 0, preempt := none, lastUse := now }

/-- The jukebox as the last burst of a flush leaves it: the drive is in VERIFY and the line VERIFYING, no preemption pending. -/
def Jukebox.verifies (j : Jukebox) (now : Nat) (d : Fin 4) (n k : Nat) : Jukebox :=
  (j.onDrive d (Drive.verifies now)).onLine n k fun l => { l with state := .verifying }

/-- A drive in VERIFY is no victim. -/
theorem verifies_victim_self {now n k t : Nat} : (j.verifies now d n k).victim t d = false := by
  refine not_victim (.inl ?_)
  rw [Jukebox.verifies, onLine_drive, onDrive_drive_self, Drive.verifies]
  exact nofun

/-- The other drives that are victims stay so. -/
theorem verifies_victim_ne {now n k t : Nat} {y : Fin 4} (hy : y ≠ d) :
    (j.verifies now d n k).victim t y = j.victim t y :=
  victim_onDrive_ne (j := j) (f := Drive.verifies now) rfl rfl hy

theorem burstDone_of_last {now : Nat} {x : Drive} (h : x.left ≤ 64) :
    x.burstDone now = { x with left := 0, lastUse := now } := by
  have h0 : x.left - min Config.burstBlocks x.left = 0 := by rw [Config.burstBlocks]; omega
  rw [Drive.burstDone, h0]

theorem burstDone_of_more {now : Nat} {x : Drive} (h : 64 < x.left) :
    x.burstDone now = { x with left := x.left - 64, lastUse := now } := by
  rw [Drive.burstDone, Config.burstBlocks, Nat.min_eq_left h.le]

/-- A pass with no blocks left is verified, and the pending preemption considered once more (R61, R71). -/
theorem writeOn_of_done (h : (j.drive d).left = 0) :
    writeOn e d j = match (j.drive d).preempt with
      | some r => considerPreempt e r (j.onDrive d fun x => { x with state := .verify, preempt := none })
      | none => j.onDrive d fun x => { x with state := .verify, preempt := none } := if_pos h

theorem flushBurstEnd_of_last (h : (j.drive d).left ≤ 64) (n k : Nat) :
    flushBurstEnd e d n k j = match (j.drive d).preempt with
      | some r => considerPreempt e r (j.verifies e.now d n k)
      | none => j.verifies e.now d n k := by
  have hd : (j.onDrive d (Drive.burstDone e.now)).drive d = { j.drive d with left := 0, lastUse := e.now } := by
    rw [onDrive_drive_self, burstDone_of_last h]
  have hf : flushBurstEnd e d n k j =
      writeOn e d ((j.onDrive d (Drive.burstDone e.now)).onLine n k fun l => { l with state := .verifying }) :=
    congrArg (writeOn e d) (if_pos (congrArg Drive.left hd))
  have hv : ((j.onDrive d (Drive.burstDone e.now)).onDrive d fun x => { x with state := .verify, preempt := none }) =
      j.onDrive d (Drive.verifies e.now) := by
    rw [onDrive_onDrive]
    exact onDrive_congr (by rw [Function.comp, burstDone_of_last h]; rfl)
  have hp : ((j.onDrive d (Drive.burstDone e.now)).drive d).preempt = (j.drive d).preempt := by rw [hd]
  rw [hf, writeOn_of_done (by exact congrArg Drive.left hd), onLine_drive, hp]
  exact congrArg (fun k' : Jukebox => match (j.drive d).preempt with
    | some r => considerPreempt e r (k'.onLine n k fun l => { l with state := .verifying })
    | none => k'.onLine n k fun l => { l with state := .verifying }) hv

/-- A burst that leaves blocks of the pass goes on with it, or parks it (R71). -/
theorem flushBurstEnd_of_more (h : 64 < (j.drive d).left) (n k : Nat) :
    flushBurstEnd e d n k j = continuePass e d (j.onDrive d (Drive.burstDone e.now)) := by
  have h0 : ¬ ((j.onDrive d (Drive.burstDone e.now)).drive d).left = 0 := by
    rw [onDrive_drive_self, burstDone_of_more h]
    dsimp only
    omega
  exact (congrArg (writeOn e d) (if_neg h0)).trans (if_neg h0)

theorem itemOf_ref {r : SegRef} {it : Item} (h : j.itemOf (.request r) = some it) : it.ref = .request r := by
  obtain ⟨q, -, hq⟩ := Option.bind_eq_some_iff.1 h
  simpa using List.find?_some hq

/-- Parking a flush leaves the drive free with the remainder of the pass, and the flush PARKED (R62). -/
theorem park_of_flushing {m : Nat} (h : j.Flushing d w p f l) (hm : (j.drive d).mounted = some m) :
    park d j = (j.onFlush f.surface fun f => { f with state := .parked }).onDrive d fun x =>
      { x with state := .ready, work := none, pass := none, left := 0
               parked := some ⟨w.ref, w.level, m, (j.flushRange f).2 - (j.drive d).left, x.left, x.pass⟩ } := by
  unfold park
  simp only [h.work, hm, h.ref, h.flush]

/-- The flush segment of a surface after a change of it. -/
theorem flush_onFlush {n : Nat} {g : Flush → Flush} (hg : ∀ x, (g x).surface = x.surface) :
    (j.onFlush n g).flush n = (j.flush n).map g := by
  unfold Jukebox.flush Jukebox.onFlush
  dsimp only
  rw [List.find?_map]
  have hp : ((fun x : Flush => decide (x.surface = n)) ∘ fun x => if x.surface = n then g x else x) =
      fun x => decide (x.surface = n) := by
    funext x
    simp only [Function.comp]
    split <;> simp [hg]
  rw [hp]
  cases hf : j.flushes.find? fun x => decide (x.surface = n) with
  | none => rfl
  | some x =>
    have hx : x.surface = n := by simpa using List.find?_some hf
    rw [Option.map_some, Option.map_some, if_pos hx]

/-- A preemption pending at a burst end that leaves blocks parks the flush, and the drive takes the EXPRESS segment; the line
stays as it is (R61, R62). -/
theorem burstEnd_parks {m : Nat} {r : SegRef} {it : Item} (h : j.Flushing d w p f l) (hs : (j.drive d).state = .transfer)
    (hl : 64 < (j.drive d).left) (hp : (j.drive d).preempt = some r) (hi : j.itemOf (.request r) = some it)
    (he : j.eligible it.target d = true) (hm : (j.drive d).mounted = some m) (media : List (Nat × MediaRead)) :
    (∃ w', ((burstEnd e d media j).drive d).work = some w' ∧ w'.ref = .request r) ∧
      ((burstEnd e d media j).drive d).preempt = none ∧
      ((burstEnd e d media j).drive d).parked =
        some ⟨w.ref, w.level, m, (j.flushRange f).2 - ((j.drive d).left - 64), (j.drive d).left - 64, (j.drive d).pass⟩ ∧
      (burstEnd e d media j).flush f.surface = some { f with state := .parked } ∧ (burstEnd e d media j).lines = j.lines := by
  have hd : (j.onDrive d (Drive.burstDone e.now)).drive d =
      { j.drive d with left := (j.drive d).left - 64, lastUse := e.now } := by
    rw [onDrive_drive_self, burstDone_of_more hl]
  have hj : (j.onDrive d (Drive.burstDone e.now)).Flushing d w p f l :=
    ⟨by rw [hd]; exact h.work, h.ref, h.kept, by rw [hd]; exact h.pass, h.flush, h.line⟩
  have hpre : (j.onDrive d (Drive.burstDone e.now)).preemptor d = some it := by
    show (((j.onDrive d _).drive d).preempt.bind fun r => j.itemOf (.request r)).filter
      (fun it => (j.onDrive d (Drive.burstDone e.now)).eligible it.target d) = some it
    rw [hd, hp, Option.bind_some, hi, Option.filter_some, eligible_onDrive rfl rfl, he, if_pos rfl]
  have hb : burstEnd e d media j = dispatch e d it (park d (j.onDrive d (Drive.burstDone e.now))) := by
    rw [burstEnd_of_flushing h hs, flushBurstEnd_of_more hl, continuePass, hpre]
  obtain ⟨hw, -, hq, hk⟩ := dispatch_drive_self (e := e) (d := d) (j := park d (j.onDrive d (Drive.burstDone e.now))) it
  obtain ⟨hln, hfl⟩ := dispatch_request_filing (e := e) (d := d) (j := park d (j.onDrive d (Drive.burstDone e.now)))
    (itemOf_ref hi)
  have hpark := park_of_flushing hj (show ((j.onDrive d (Drive.burstDone e.now)).drive d).mounted = some m by rw [hd]; exact hm)
  rw [hb]
  obtain ⟨w', hw', hr⟩ := Option.map_eq_some_iff.1 hw
  refine ⟨⟨w', hw', hr.trans (itemOf_ref hi)⟩, hq, ?_, ?_, ?_⟩
  · rw [hk, hpark, onDrive_drive_self, onFlush_drive, hd]
    rfl
  · have hfk : ∀ k : Jukebox, k.flushes = (park d (j.onDrive d (Drive.burstDone e.now))).flushes →
        k.flush f.surface = some { f with state := .parked } := fun k hkf => by
      rw [Jukebox.flush, hkf, hpark]
      exact (flush_onFlush (j := j) (g := fun f => { f with state := .parked }) fun _ => rfl).trans (congrArg _ h.flush)
    exact hfk _ hfl
  · rw [hln, hpark]
    rfl

/-- The last burst of a flush with a preemption pending: another victim has it pending, or none (R60, R61). -/
theorem verifies_considered_of_none {r : SegRef} {it : Item} {n k now : Nat} (hi : j.itemOf (.request r) = some it)
    (h : ¬ it.mayPreempt e.settings ∨ ∀ y, ¬ (y ≠ d ∧ j.victim it.target y = true)) :
    considerPreempt e r (j.verifies now d n k) = j.verifies now d n k := by
  refine considerPreempt_of_none fun it' hi' hm y => ?_
  obtain rfl : it = it' := Option.some.inj (hi.symm.trans hi')
  have hn := h.resolve_left (not_not.2 hm) y
  by_cases hy : y = d
  · subst hy
    exact verifies_victim_self
  · exact (verifies_victim_ne hy).trans (Bool.eq_false_iff.2 fun hv => hn ⟨hy, hv⟩)

theorem verifies_considered_of_victim {r : SegRef} {it : Item} {n k now : Nat} {v : Fin 4}
    (hi : j.itemOf (.request r) = some it) (hm : it.mayPreempt e.settings) (hv : v ≠ d ∧ j.victim it.target v = true)
    (hb : ∀ y, y ≠ d ∧ j.victim it.target y = true → (j.drive y).left < (j.drive v).left ∨
      ((j.drive y).left = (j.drive v).left ∧ v ≤ y)) :
    considerPreempt e r (j.verifies now d n k) = (j.verifies now d n k).onDrive v fun x => { x with preempt := some r } := by
  obtain ⟨hvd, hv⟩ := hv
  have hdrive : ∀ y, y ≠ d → (j.verifies now d n k).drive y = j.drive y := fun y hy => onDrive_drive_ne j hy _
  refine considerPreempt_of_victim hi hm ((verifies_victim_ne hvd).trans hv) fun y hy => ?_
  have hyd : y ≠ d := by
    rintro rfl
    rw [verifies_victim_self] at hy
    cases hy
  rw [hdrive y hyd, hdrive v hvd]
  exact hb y ⟨hyd, by rwa [verifies_victim_ne hyd] at hy⟩

/-! ## Verify ends (R72, R118 to R120) -/

theorem used_eligible {now t : Nat} : (j.onDrive d (Drive.used now)).eligible t d = j.eligible t d :=
  eligible_onDrive (f := Drive.used now) rfl rfl

/-- A change of a line and one of a drive in the other order. -/
theorem onLine_onDrive {n k : Nat} (g : GatherLine → GatherLine) (h : Drive → Drive) :
    (j.onLine n k g).onDrive d h = (j.onDrive d h).onLine n k g := rfl

/-- A change of a flush segment and one of a drive in the other order. -/
theorem onFlush_onDrive {n : Nat} (g : Flush → Flush) (h : Drive → Drive) :
    (j.onFlush n g).onDrive d h = (j.onDrive d h).onFlush n g := rfl

theorem beginBurst_of_flush {n k : Nat} (hw : (j.drive d).work = some w) (hr : w.ref = .flush n k) : beginBurst d j = j := by
  unfold beginBurst
  simp only [hw, hr]

/-- A failed verify before the third writes the side again (R120). -/
theorem verifyEnd_again (h : j.Flushing d w p f l) (hs : (j.drive d).state = .verify) (hl : l.attempts < 2) :
    verifyEnd e d false j = (j.onDrive d fun x => { x with
        state := .transfer, left := (j.flushRange f).2 - (j.flushRange f).1, pass := some ⟨p.side, l.attempts + 1⟩
        lastUse := e.now }).onLine f.surface f.line fun y => { y with state := .flushing, attempts := l.attempts + 1 } := by
  rw [verifyEnd_of_flushing h hs]
  unfold flushVerifyEnd
  simp only [Bool.false_eq_true, if_false, if_pos (show l.attempts + 1 < 3 by omega)]
  refine (beginBurst_of_flush (by simp only [onDrive_drive_self, onLine_drive, Drive.used, h.work]) h.ref).trans ?_
  simp only [onLine_onDrive, onDrive_onDrive]
  rfl

/-- A drive that an order does not name and that is not to go OFFLINE places its order at the tail of a queue that has no order
to start (R72, R77). -/
theorem placeOrder_queued {m : Nat} {out : Option Nat} (hout : (j.drive d).platter = out)
    (ho : ∀ o ∈ j.orders, o.drive ≠ d)
    (hk : j.picker.state ≠ .parked) :
    placeOrder e d m false j = { j with orders := j.orders ++ [⟨d,
      if out = some (m / 2) then .turnover else .exchange, out, some (m / 2), some (if m % 2 = 0 then .a else .b), false,
      if out = none then 4 else 1, .queued, false, false⟩] } := by
  have hn : j.orderOf d = none := orderOf_eq_none_iff.2 ho
  unfold placeOrder joinOrders
  simp only [hn, hout]
  rw [startNext_of_not_parked (by exact hk), insertOrder_of_not_express rfl]
  cases out <;> rfl

/-- A passed primary verify of a DUAL flush goes on with the mirror side, or back to the list (R118). -/
theorem flushVerifyEnd_dual {m a : Nat} (hp : p.side = .primary) (hw : f.writeRoute = .dual) (hm : f.mirror = some m) :
    flushVerifyEnd e d true f p a j =
      let k := (j.onLine f.surface f.line fun l => { l with state := .flushing }).onFlush f.surface fun f =>
        { f with primaryDone := true }
      if j.eligible m d then beginPass e d ⟨.mirror, p.failed⟩ ((j.flushRange f).2 - (j.flushRange f).1) m k
      else endWork e d (push e (.flush f.surface f.line) (k.onFlush f.surface fun f => { f with state := .queued })) := by
  unfold flushVerifyEnd
  simp only [if_true, hp, hw, hm]
  rfl

/-- After a passed primary verify of a DUAL flush the drive that can reach the mirror platter places the order for it (R118). -/
theorem verifyEnd_mirrors {m : Nat} (h : j.Flushing d w p f l) (hs : (j.drive d).state = .verify) (hp : p.side = .primary)
    (hw : f.writeRoute = .dual) (hm : f.mirror = some m) (hmt : (j.drive d).mounted ≠ some m) (he : j.eligible m d = true)
    (ho : ∀ o ∈ j.orders, o.drive ≠ d) (hk : j.picker.state ≠ .parked) :
    verifyEnd e d true j = { ((j.onDrive d fun x => { x with
          state := .ready, pass := some ⟨.mirror, p.failed⟩, left := (j.flushRange f).2 - (j.flushRange f).1
          lastUse := e.now }).onFlush f.surface fun y => { y with primaryDone := true }) with
        lines := (j.onLine f.surface f.line fun y => { y with state := .flushing }).lines
        orders := j.orders ++ [⟨d,
          if (j.drive d).platter = some (m / 2) then .turnover else .exchange, (j.drive d).platter, some (m / 2),
          some (if m % 2 = 0 then .a else .b), false, if (j.drive d).platter = none then 4 else 1,
          .queued, false, false⟩] } := by
  rw [verifyEnd_of_flushing h hs, flushVerifyEnd_dual hp hw hm]
  dsimp only
  rw [if_pos (used_eligible.trans he)]
  unfold beginPass seek
  rw [if_neg (by simpa only [onDrive_drive_self, onFlush_drive, onLine_drive, Drive.used] using hmt),
    placeOrder_queued (out := (j.drive d).platter) (by simp only [onDrive_drive_self, onFlush_drive, onLine_drive, Drive.used])
      (by exact ho) (by exact hk)]
  simp only [onFlush_onDrive, onLine_onDrive, onDrive_onDrive]
  rfl

/-! ### The ends of a flush -/

/-- A drive with nothing in hand but its segment: no parked context, no offline flag, no order that names it, and a dwell time
(R57). -/
structure Jukebox.DwellsNext (j : Jukebox) (e : Env) (d : Fin 4) : Prop where
  parked : (j.drive d).parked = none
  unflagged : (j.drive d).offlineFlag = false
  orders : ∀ o ∈ j.orders, o.drive ≠ d
  dwell : 0 < e.settings.dwell

/-- The drive lets a flush go, the filing engine having changed its own records (R57, R71). -/
theorem endWork_filed {k : Jukebox} (hd : j.DwellsNext e d) (hn : NothingWaits e k) (ho : k.orders = j.orders)
    (hk : k.drives = (j.onDrive d (Drive.used e.now)).drives) :
    endWork e d k =
      { k with drives := (j.onDrive d fun x => { x.freed (e.now + e.settings.dwell) with lastUse := e.now }).drives } := by
  have hdr : k.drive d = { j.drive d with lastUse := e.now } :=
    (congrArg (fun v : Vector Drive 4 => v[d]) hk).trans (onDrive_drive_self j d _)
  rw [endWork_of_nothing hn (by rw [hdr]; exact hd.parked) (by rw [hdr]; exact hd.unflagged) (by rw [ho]; exact hd.orders)
    hd.dwell]
  unfold Jukebox.onDrive
  rw [hdr, hk]
  simp [Jukebox.onDrive, Drive.freed]

theorem endAwaiting_of_no_request {st : Status} {q : Segment → Bool} (ht : j.table = []) : endAwaiting st q j = j := by
  unfold endAwaiting
  rw [ht, List.map_nil, ← ht]

theorem dropFlush_of_single (hf : j.flushes = [f]) : j.dropFlush f.surface = { j with flushes := [] } := by
  unfold Jukebox.dropFlush
  rw [hf]
  simp

/-- With a third failed verify the line is pinned, the surface quarantined, and the drive dwells (R120). -/
theorem verifyEnd_pins (h : j.Flushing d w p f l) (hs : (j.drive d).state = .verify) (hl : 2 ≤ l.attempts)
    (ht : j.table = []) (hf : j.flushes = [f]) (hd : j.DwellsNext e d) :
    verifyEnd e d false j = { ((j.onDrive d fun x => { x.freed (e.now + e.settings.dwell) with lastUse := e.now }).onSurface
        f.surface fun r => { r with quarantine := some ⟨f.line, p.side, 3⟩ }) with
      lines := (j.onLine f.surface f.line fun y => { y with state := .pinned, attempts := 3 }).lines
      flushes := [] } := by
  rw [verifyEnd_of_flushing h hs]
  unfold flushVerifyEnd
  simp only [Bool.false_eq_true, if_false, if_neg (show ¬ l.attempts + 1 < 3 by omega)]
  have hpin : pinLine f p.side (j.onDrive d (Drive.used e.now)) =
      { ((j.onDrive d (Drive.used e.now)).onSurface f.surface fun r =>
          { r with quarantine := some ⟨f.line, p.side, 3⟩ }) with
        lines := (j.onLine f.surface f.line fun y => { y with state := .pinned, attempts := 3 }).lines
        flushes := [] } := by
    unfold pinLine
    rw [endAwaiting_of_no_request (by exact ht)]
    exact dropFlush_of_single (by exact hf)
  rw [hpin]
  refine Eq.trans (congrArg (examineHead e) (endWork_filed hd ⟨ht, .inl rfl⟩ rfl rfl)) ?_
  exact Eq.trans (examineHead_of_no_request ht) rfl

theorem flushVerifyEnd_seals {a : Nat} (hp : p.side = .mirror ∨ f.writeRoute = .primary ∨ f.mirror = none) :
    flushVerifyEnd e d true f p a j = testFlush e f.surface (examineHead e (endWork e d (sealBlocks f j))) := by
  unfold flushVerifyEnd
  simp only [if_true]
  split
  · next h1 h2 h3 => simp [h1, h2, h3] at hp
  · rfl

/-- A surface whose lines in use are not due gets no flush segment (R116). -/
theorem testFlush_of_not_due {n : Nat} (h : ∀ y ∈ j.lines, y.surface = n → y.due = none) : testFlush e n j = j := by
  have hn : j.newFlush e n = none := by
    unfold Jukebox.newFlush
    split
    · next y hy =>
      have hy := List.mem_filter.1 (List.mem_of_head? hy)
      rw [h y hy.1 (of_decide_eq_true hy.2)]
    · rfl
  unfold testFlush
  rw [hn]

/-- The last required verify seals the blocks and frees the line, and the drive dwells (R119). -/
theorem verifyEnd_seals (h : j.Flushing d w p f l) (hs : (j.drive d).state = .verify)
    (hp : p.side = .mirror ∨ f.writeRoute = .primary ∨ f.mirror = none)
    (hdue : ∀ y ∈ j.lines, y.surface = f.surface → y.index = f.line ∨ y.due = none)
    (ht : j.table = []) (hf : j.flushes = [f]) (hd : j.DwellsNext e d) :
    verifyEnd e d true j = { ((j.onDrive d fun x => { x.freed (e.now + e.settings.dwell) with lastUse := e.now }).onSurface
        f.surface fun r => { r with sealMark := (j.flushRange f).2 }) with
      lines := (j.freeLine f.surface f.line).lines
      flushes := [] } := by
  rw [verifyEnd_of_flushing h hs, flushVerifyEnd_seals hp]
  have hseal : sealBlocks f (j.onDrive d (Drive.used e.now)) =
      { ((j.onDrive d (Drive.used e.now)).onSurface f.surface fun r =>
          { r with sealMark := (j.flushRange f).2 }) with
        lines := (j.freeLine f.surface f.line).lines
        flushes := [] } := by
    unfold sealBlocks
    rw [endAwaiting_of_no_request (by exact ht)]
    exact dropFlush_of_single (by exact hf)
  rw [hseal]
  refine Eq.trans (congrArg (fun k => testFlush e f.surface (examineHead e k))
    (endWork_filed hd ⟨ht, .inl rfl⟩ rfl rfl)) ?_
  refine Eq.trans (congrArg (testFlush e f.surface) (examineHead_of_no_request ht)) ?_
  refine (testFlush_of_not_due fun y hy hn => ?_).trans rfl
  obtain ⟨hy, hne⟩ := List.mem_filter.1 (show y ∈ (j.freeLine f.surface f.line).lines from hy)
  exact (hdue y hy hn).resolve_left fun hi => by simp [hn, hi] at hne

/-- With dispatch enable off a push places nothing (R50). -/
theorem push_of_no_dispatch {r : WorkRef} (h : e.settings.dispatch = false) : push e r j = j := by
  unfold push
  simp only [h, Bool.and_false, Bool.false_eq_true, if_false]
  split <;> rfl

/-- After a passed primary verify a drive that cannot reach the mirror platter lets the flush go back to its list (R118). -/
theorem verifyEnd_requeues {m : Nat} (h : j.Flushing d w p f l) (hs : (j.drive d).state = .verify) (hp : p.side = .primary)
    (hw : f.writeRoute = .dual) (hm : f.mirror = some m) (he : j.eligible m d = false) (hdis : e.settings.dispatch = false)
    (ht : j.table = []) (hf : j.flushes = [f]) (hd : j.DwellsNext e d) :
    verifyEnd e d true j = { (j.onDrive d fun x => { x.freed (e.now + e.settings.dwell) with lastUse := e.now }) with
      lines := (j.onLine f.surface f.line fun y => { y with state := .flushing }).lines
      flushes := [{ f with primaryDone := true, state := .queued }] } := by
  have hfl : ((j.onFlush f.surface fun y => { y with primaryDone := true }).onFlush f.surface fun y =>
      { y with state := .queued }).flushes = [{ f with primaryDone := true, state := .queued }] := by
    simp [Jukebox.onFlush, hf]
  rw [verifyEnd_of_flushing h hs, flushVerifyEnd_dual hp hw hm]
  dsimp only
  rw [if_neg (by rw [used_eligible, he]; decide), push_of_no_dispatch hdis, ← hfl]
  refine Eq.trans (endWork_filed hd ⟨ht, .inr hdis⟩ rfl rfl) ?_
  rfl

end flush

/-- Settles O56: each end of a burst or verify of a flush is its clause of the statement, on the jukebox of the event. -/
theorem flushPassesSealOrQuarantine : Obligations.FlushPassesSealOrQuarantine := by
  intro s d w p f l hp x hw hr hk hpass hf hl _ range onLines
  have hj : s.fresh.jb.Flushing d w p f l := ⟨hw, hr, hk, hpass, hf, hl⟩
  have burst {media} {h : Jukebox → Jukebox} (hb : burstEnd s.env d media s.fresh.jb = h s.fresh.jb) :
      exec (.burstEnd d media) s = .next (s.withJb h) := event_of_powered hp hb
  have verify {b} {h : Jukebox → Jukebox} (hv : verifyEnd s.env d b s.fresh.jb = h s.fresh.jb) :
      exec (.verifyEnd d b) s = .next (s.withJb h) := event_of_powered hp hv
  have last (hs : x.state = .transfer) (hx : x.left ≤ 64) (media) :=
    (burstEnd_of_flushing (e := s.env) hj hs media).trans (flushBurstEnd_of_last (j := s.fresh.jb) hx f.surface f.line)
  refine ⟨fun hs hx hq media => burst ?_, fun r it hs hq hi => ⟨fun hx he m media hm => ?_, fun hx => ?_⟩,
    fun hs ha => verify (verifyEnd_again hj hs ha), fun hs hside hroute m hm hmt he ho hpk =>
      verify (verifyEnd_mirrors hj hs hside hroute hm hmt he ho hpk), fun hs ht hfl hpark hflag ho hdw => ?_⟩
  · rw [last hs hx media, show (s.fresh.jb.drive d).preempt = none from hq]
    have hd : Drive.verifies s.now x = { x with state := .verify, left := 0, lastUse := s.now } := by
      rw [Drive.verifies, ← hq]
    exact congrArg (Jukebox.onLine · f.surface f.line _) (onDrive_congr (j := s.fresh.jb) hd)
  · obtain ⟨⟨w', hw', hr'⟩, hrest⟩ := burstEnd_parks (e := s.env) hj hs hx hq hi he hm media
    exact ⟨_, w', event_of_powered (h := burstEnd s.env d media) hp rfl, hw', hr', hrest⟩
  · have considered (media) : burstEnd s.env d media s.fresh.jb =
        considerPreempt s.env r (s.fresh.jb.verifies s.now d f.surface f.line) := by
      rw [last hs hx media, show (s.fresh.jb.drive d).preempt = some r from hq]
      rfl
    exact ⟨fun hn media => burst ((considered media).trans (verifies_considered_of_none hi hn)),
      fun v hm hv hb media => burst ((considered media).trans (verifies_considered_of_victim hi hm hv hb))⟩
  · have hd : s.fresh.jb.DwellsNext s.env d := ⟨hpark, hflag, ho, hdw⟩
    exact ⟨fun ha => verify (verifyEnd_pins hj hs ha ht hfl hd),
      fun hlast hdue => verify (verifyEnd_seals hj hs hlast hdue ht hfl hd),
      fun m hside hroute hm he hdis => verify (verifyEnd_requeues hj hs hside hroute hm he hdis ht hfl hd)⟩

end Sys2Proof.Machine
end

section
/-! The service door (R86 to R88). -/

namespace Sys2Proof.Machine

section door
variable {e : Env} {j : Jukebox}

theorem doorOpens_of_fault (h : j.picker.state = .fault) :
    doorOpens j = { j with picker := { j.picker with door := .opened, settleEnd := none } } := by
  unfold doorOpens
  dsimp only [onPicker_picker]
  split
  · rfl
  · next h' => rw [h] at h'; cases h'
  · next hn _ => exact absurd h hn

theorem doorOpens_of_halted (h : j.picker.state = .halted) :
    doorOpens j = { j with picker := { j.picker with
      door := .opened, settleEnd := none, halt := j.picker.halt.map fun h => { h with awaiting := false } } } := by
  unfold doorOpens
  dsimp only [onPicker_picker]
  split
  · next h' => rw [h] at h'; cases h'
  · rfl
  · next hn => exact absurd h hn

/-- A picker that is neither HALTED nor in FAULT is halted with its running order (R86). -/
theorem doorOpens_of_active (hf : j.picker.state ≠ .fault) (hh : j.picker.state ≠ .halted) :
    doorOpens j = { j with
      orders := haltedOrders j.orders
      picker := { j.picker with
        door := .opened, settleEnd := none, state := .halted, halt := some ⟨j.picker.state, false⟩, stepLimit := none } } := by
  unfold doorOpens
  dsimp only [onPicker_picker]
  split
  · next h => exact absurd h hf
  · next h => exact absurd h hh
  · rfl

theorem doorCloses_of_opened (h : j.picker.door = .opened) :
    doorCloses e j = { j with picker := { j.picker with door := .settling, settleEnd := some (e.now + 3000) } } := if_pos h

theorem doorCloses_of_not_opened (h : j.picker.door ≠ .opened) : doorCloses e j = j := if_neg h

/-- The jukebox with the door CLOSED after its settle (R88). -/
def Jukebox.settled (j : Jukebox) : Jukebox := { j with picker := { j.picker with door := .closed, settleEnd := none } }

theorem settleEnds_of_not_settling (h : j.picker.door ≠ .settling) : settleEnds e j = j := if_neg h

theorem settleEnds_of_not_halted (h : j.picker.door = .settling) (hs : j.picker.state ≠ .halted) :
    settleEnds e j = j.settled := (if_pos h).trans (if_neg hs)

theorem settleEnds_of_halted (h : j.picker.door = .settling) (hs : j.picker.state = .halted) :
    settleEnds e j = if e.settings.autoResume then resumePicker e j.settled
      else j.settled.onPicker fun p => { p with halt := p.halt.map fun h => { h with awaiting := true } } :=
  (if_pos h).trans (if_pos hs)

end door

/-- An event that leaves the jukebox as it was. -/
theorem event_of_still {s : State} {f : Env → Jukebox → Jukebox} (hp : s.powered = true)
    (hf : f s.env s.fresh.jb = s.fresh.jb) : s.event f = .next s.fresh := event_of_powered (h := id) hp hf

/-- Settles O45: each event of the door by the state of the picker and the phase of the door. -/
theorem doorHaltsThePicker : Obligations.DoorHaltsThePicker := by
  intro s hp p
  have opening {h} (hf : doorOpens s.fresh.jb = h s.fresh.jb) : exec .doorOpening s = .next (s.withJb h) :=
    event_of_powered (f := fun _ => doorOpens) hp hf
  have settle {h} (hf : settleEnds s.env s.fresh.jb = h s.fresh.jb) : exec .settleEnd s = .next (s.withJb h) :=
    event_of_powered hp hf
  refine ⟨fun h => opening (doorOpens_of_fault h), fun h => opening (doorOpens_of_halted h),
    fun hf hh => opening (doorOpens_of_active hf hh), fun h => ?_, fun h => ?_, fun h => ?_,
    fun h hs => settle (settleEnds_of_not_halted h hs), fun h hs ha => settle ?_⟩
  · exact event_of_powered (f := doorCloses) hp (doorCloses_of_opened h)
  · exact event_of_still (f := doorCloses) hp (doorCloses_of_not_opened h)
  · exact event_of_still (f := settleEnds) hp (settleEnds_of_not_settling h)
  · exact (settleEnds_of_halted (j := s.fresh.jb) h hs).trans (if_neg (by rw [show s.env.settings = s.settings from rfl, ha]; decide))

end Sys2Proof.Machine
end

section
/-! The exchange order at the head of the queue: its steps, its end, and a drive or a sweep that finds no work (R50, R55, R56, R76
to R82). -/

namespace Sys2Proof.Machine

section head
variable {e : Env} {j : Jukebox} {o : Order} {rest : List Order}

/-- The queue begins with order `o`, the only one of its drive (R77). -/
structure Jukebox.Heads (j : Jukebox) (o : Order) (rest : List Order) : Prop where
  orders : j.orders = o :: rest
  alone : ∀ x ∈ rest, x.drive ≠ o.drive

theorem Jukebox.Heads.onOrder (h : j.Heads o rest) (f : Order → Order) :
    j.onOrder o.drive f = { j with orders := f o :: rest } := by
  have hr : (rest.map fun x => if x.drive = o.drive then f x else x) = rest :=
    (List.map_congr_left fun x hx => if_neg (h.alone x hx)).trans (List.map_id' rest)
  unfold Jukebox.onOrder
  rw [h.orders, List.map_cons, if_pos rfl, hr]

theorem Jukebox.Heads.orderOf (h : j.Heads o rest) : j.orderOf o.drive = some o := by
  rw [Jukebox.orderOf, h.orders, List.find?_cons_of_pos (by simp)]

theorem runningOrder_of_head (h : j.orders = o :: rest) (hr : o.state = .running) : j.runningOrder = some o := by
  rw [Jukebox.runningOrder, h]
  simp [hr]

/-- A running step of the order at the head (R77). -/
theorem runningStep_of_head (h : j.orders = o :: rest) (hr : o.state = .running) (hb : j.picker.state = .busy)
    (hi : j.picker.inventory = none) (n : Nat) : j.runningStep n = if o.step = n then some o else none := by
  unfold Jukebox.runningStep Jukebox.inventoryRuns
  rw [runningOrder_of_head h hr, hb, hi]
  simp [Option.filter_some]

/-- The picker runs the order at the head of the queue (R77). -/
structure Jukebox.Runs (j : Jukebox) (o : Order) (rest : List Order) : Prop extends j.Heads o rest where
  running : o.state = .running
  busy : j.picker.state = .busy
  surveyed : j.picker.inventory = none

theorem Jukebox.Runs.step (h : j.Runs o rest) (n : Nat) : j.runningStep n = if o.step = n then some o else none :=
  runningStep_of_head h.orders h.running h.busy h.surveyed n

theorem Jukebox.Runs.not_queued (h : j.Runs o rest) : o.state ≠ .queued := by
  rw [h.running]
  decide

/-- While the picker works a step has its limit (R82). -/
theorem freshLimit_of_active (h : j.picker.state = .busy ∨ j.picker.state = .inventory) :
    freshLimit e j = { j with picker := { j.picker with stepLimit := some (e.now + 15000) } } := by
  unfold freshLimit Jukebox.onPicker
  dsimp only
  rw [if_pos (by simpa using h)]
  rfl

theorem toStep_of_heads (h : j.Heads o rest) (hb : j.picker.state = .busy) (n : Nat) :
    toStep e o.drive n j = { j with
      orders := { o with step := n } :: rest
      picker := { j.picker with stepLimit := some (e.now + 15000) } } := by
  unfold toStep
  rw [h.onOrder]
  exact freshLimit_of_active (.inl hb)

/-- The picker has nothing more to run (R77, R81): one that is BUSY with an order becomes PARKED. -/
def Picker.idled (p : Picker) : Picker :=
  { p with
    state := if p.state = .busy ∧ p.recovering = false then .parked else p.state
    stepLimit := if p.state = .busy ∧ p.recovering = false then none else p.stepLimit }

theorem pickerDone_of_no_order (h : j.orders = []) : pickerDone e j = { j with picker := j.picker.idled } := by
  unfold pickerDone Picker.idled startNext
  by_cases hb : j.picker.state = .busy ∧ j.picker.recovering = false
  · simp [hb, h, Jukebox.onPicker]
  · rw [if_neg (by simpa using hb), if_neg hb, if_neg hb]

/-- The only order of the queue leaves it. -/
theorem removeOrder_of_only (h : j.Heads o []) (hs : o.state ≠ .queued) :
    removeOrder e o.drive j = { j with orders := [], picker := j.picker.idled } := by
  have hd : dropOrder o.drive j = { j with orders := [] } := by
    unfold dropOrder
    rw [h.orders]
    simp
  unfold removeOrder
  rw [h.orderOf]
  dsimp only
  rw [if_neg hs, hd, pickerDone_of_no_order rfl]

/-! ## Step 1 (R78) -/

/-- The picker stands at drive `d`, no move broken off since (R78, log entry 17). -/
abbrev Picker.AtDrive (p : Picker) (d : Fin 4) : Prop := p.position = some (.drive d) ∧ p.midway = false

theorem standsAt_iff (p : Picker) (d : Fin 4) : p.standsAt d = true ↔ p.AtDrive d := by
  simp [Picker.standsAt, Picker.AtDrive]

theorem checkStep1_of_later (h : j.Heads o rest) (hr : o.state = .running) (hs : o.step ≠ 1) : checkStep1 e j = j := by
  unfold checkStep1
  rw [runningOrder_of_head h.orders hr]
  simp [hs]

theorem checkStep1_of_away (h : j.Heads o rest) (hr : o.state = .running) (ha : ¬ j.picker.AtDrive o.drive) :
    checkStep1 e j = j := by
  unfold checkStep1
  rw [runningOrder_of_head h.orders hr]
  simp [Bool.eq_false_iff.2 (mt (standsAt_iff _ _).1 ha)]

/-- The picker at the drive waits with no limit, or goes on with step 2 when the platter is at the mouth (R78). -/
theorem checkStep1_of_there (h : j.Heads o rest) (hr : o.state = .running) (hs : o.step = 1)
    (hb : j.picker.state = .busy) (ha : j.picker.AtDrive o.drive) {x : Bool} (hx : (j.drive o.drive).ejected = x) :
    checkStep1 e j = { j with
      orders := { o with step := if x then 2 else 1 } :: rest
      picker := { j.picker with stepLimit := if x then some (e.now + 15000) else none } } := by
  unfold checkStep1
  rw [runningOrder_of_head h.orders hr]
  dsimp only
  rw [hs, (standsAt_iff _ _).2 ha, if_pos (by simp), hx]
  cases x with
  | true => exact toStep_of_heads h hb 2
  | false =>
    have ho : { o with step := 1 } = o := by rw [← hs]
    simp [ho, ← h.orders, Jukebox.onPicker]

/-- The HALTED order at the head goes on at step `n` (R160). -/
theorem goOn_of_heads (h : j.Heads o rest) (n : Nat) :
    goOn e o.drive n j = checkStep1 e { j with
      orders := { o with state := .running, step := n } :: rest
      picker := { j.picker with state := .busy, stepLimit := some (e.now + 15000) } } := by
  have hb : (j.onPicker fun p => { p with state := .busy }).Heads o rest := ⟨h.orders, h.alone⟩
  have hr : ({ j.onPicker fun p => { p with state := .busy } with
      orders := { o with state := .running } :: rest } : Jukebox).Heads { o with state := .running } rest := ⟨rfl, h.alone⟩
  refine (congrArg (fun k => checkStep1 e (toStep e o.drive n k)) (hb.onOrder fun o => { o with state := .running })).trans ?_
  exact congrArg (checkStep1 e) (toStep_of_heads hr rfl n)

theorem goOn_of_later (h : j.Heads o rest) {n : Nat} (hn : n ≠ 1) :
    goOn e o.drive n j = { j with
      orders := { o with state := .running, step := n } :: rest
      picker := { j.picker with state := .busy, stepLimit := some (e.now + 15000) } } :=
  (goOn_of_heads h n).trans
    (checkStep1_of_later (o := { o with state := .running, step := n }) ⟨rfl, h.alone⟩ rfl hn)

/-- Step 1 begins again: the picker sets off for the drive, or, standing there, waits for the platter or goes on with step 2
(R78). -/
theorem goOn_of_step1 (h : j.Heads o rest) :
    goOn e o.drive 1 j = { j with
      orders := { o with
        state := .running
        step := if j.picker.AtDrive o.drive ∧ (j.drive o.drive).ejected = true then 2 else 1 } :: rest
      picker := { j.picker with
        state := .busy
        stepLimit := if j.picker.AtDrive o.drive ∧ ¬ (j.drive o.drive).ejected = true then none
          else some (e.now + 15000) } } := by
  have hk : ({ j with
      orders := { o with state := .running, step := 1 } :: rest
      picker := { j.picker with state := .busy, stepLimit := some (e.now + 15000) } } : Jukebox).Heads
      { o with state := .running, step := 1 } rest := ⟨rfl, h.alone⟩
  refine (goOn_of_heads h 1).trans ?_
  by_cases ha : j.picker.AtDrive o.drive
  · refine (checkStep1_of_there hk rfl rfl rfl ha (x := (j.drive o.drive).ejected) rfl).trans ?_
    simp only [eq_true ha, true_and]
    cases (j.drive o.drive).ejected <;> rfl
  · refine (checkStep1_of_away hk rfl ha).trans ?_
    simp only [eq_false ha, false_and, if_false]

end head

end Sys2Proof.Machine
end

section
/-! A picker fault, and the steps of an order between a drive and a slot (R78 to R82, R154, R157, R158). -/

namespace Sys2Proof.Machine

/-! ## An arbiter that places nothing (R50, R55, R56) -/

/-- The arbiter has nothing to place: dispatch enable is off, or no work waits (R50). -/
def Jukebox.Calm (e : Env) (j : Jukebox) : Prop := e.settings.dispatch = false ∨ j.NoWork

section calm
variable {e : Env} {j : Jukebox} {d : Fin 4}

theorem dispatchable_of_no_dispatch (h : e.settings.dispatch = false) : dispatchable e j = [] := by
  rw [dispatchable, h]
  rfl

theorem sweep_of_calm (h : j.Calm e) : sweep e j = j := by
  obtain h | h := h
  · have hn : sweepItem e j = none := by rw [sweepItem, dispatchable_of_no_dispatch h]; rfl
    unfold sweep sweepN
    rw [hn]
  · exact sweep_of_noWork h

theorem sweepIfInSlot_of_calm (h : j.Calm e) (p : Option Nat) : sweepIfInSlot e p j = j := by
  unfold sweepIfInSlot
  split
  · split
    · exact sweep_of_calm h
    · rfl
  · rfl

theorem pull_of_calm (h : j.Calm e) : pull e d j = j := by
  obtain h | h := h
  · unfold pull
    rw [dispatchable_of_no_dispatch h, List.findSome?_nil]
    exact ite_self j
  · exact pull_of_noWork h

/-- A drive that is free for work finds none (R55). -/
theorem driveFree_of_calm (h : j.Calm e) (hp : (j.drive d).parked = none)
    (hf : (j.drive d).offlineFlag = true → (j.drive d).state ≠ .empty ∧ (j.drive d).state ≠ .ready) :
    driveFree e d false j = j := by
  unfold driveFree
  dsimp only
  split
  · rfl
  · next hn =>
    have hf : (j.drive d).offlineFlag = false := by
      simp only [Bool.or_eq_true, Bool.not_eq_true', decide_eq_true_eq, not_or, Bool.not_eq_false, Bool.or_eq_true] at hn
      exact Bool.eq_false_iff.2 fun hc => hn.2.elim (hf hc).1 (hf hc).2
    rw [hp]
    dsimp only
    rw [hf, if_neg (by decide), Bool.false_and, if_neg (by decide), pull_of_calm h]

/-- A drive whose incoming platter is on its way goes on with its order (R83). -/
theorem driveFree_of_order {o : Order} (h : j.orderOf d = some o) (hk : o.kind ≠ .returnHome) (ended : Bool) :
    driveFree e d ended j = j := by
  have ha : j.awaitsInsert d = true := by simp [Jukebox.awaitsInsert, h, hk]
  unfold driveFree
  simp [ha]

theorem examineHead_of_noIntake (h : j.NoIntake) : examineHead e j = j := by
  have hq : j.stagingQueue = [] := List.filter_eq_nil_iff.2 fun q hq => by simpa using h q hq
  unfold examineHead
  cases j.table.length with
  | zero => rfl
  | succ n => rw [examineN, hq]

end calm

/-! ## Picker faults (R82, R158) -/

section faults
variable {e : Env} {j : Jukebox}

theorem stepOverrun_of_limit (h : j.picker.stepLimit ≠ none) (hs : j.picker.state = .busy ∨ j.picker.state = .inventory) :
    stepOverrun j = pickerFault .stepLimit j.moving j :=
  if_pos (by simpa [Option.isSome_iff_ne_none] using ⟨hs, h⟩)

theorem stepOverrun_of_no_limit (h : j.picker.stepLimit = none) : stepOverrun j = j := if_neg (by simp [h])

theorem retestAll_of_no_request (h : j.table = []) : retestAll e j = j := by
  rw [retestAll, h]
  rfl

end faults

/-- Settles O48: the limit that passes and the grip that fails both end in the picker's fault. -/
theorem pickerFaultHaltsTheOrder : Obligations.PickerFaultHaltsTheOrder := by
  intro s hp p faulted
  refine ⟨fun hl hs => ?_, fun hl => ?_, fun o rest hb hi ho hr => ?_⟩
  · exact event_of_powered (f := fun _ => stepOverrun) hp (stepOverrun_of_limit hl hs)
  · exact event_of_still (f := fun _ => stepOverrun) hp (stepOverrun_of_no_limit hl)
  have running := runningStep_of_head (j := s.fresh.jb) ho hr hb hi
  refine ⟨fun h2 => ?_, fun k h4 hk hl ht => ?_⟩
  · refine event_of_powered (f := gripFails) hp ?_
    unfold gripFails
    rw [running, running, if_neg (by omega), if_pos h2]
    rfl
  · refine event_of_powered (f := gripFails) hp ?_
    unfold gripFails
    rw [running, if_pos h4]
    dsimp only
    rw [hk, Option.filter_some, if_pos (decide_eq_true (by exact hl))]
    exact retestAll_of_no_request ht

end Sys2Proof.Machine
end

section
/-! The steps of an exchange order, from the drive it takes a platter out of to the drive it seats one in (R70, R74, R78 to R81,
R154, R157, R164). -/

namespace Sys2Proof.Machine

section take
variable {e : Env} {j : Jukebox} {o : Order} {rest : List Order} {k : Nat}

/-! ## Steps 1 and 2 -/

/-- The picker's arrival in step 1 (R78). -/
theorem arrives_of_step1 (h : j.Runs o rest) (hs : o.step = 1) :
    arrives e j = { j with
      orders := (if (j.drive o.drive).ejected then { o with step := 2 } else o) :: rest
      picker := { j.picker with
        position := some (.drive o.drive), midway := false
        stepLimit := if (j.drive o.drive).ejected then some (e.now + 15000) else none } } := by
  have hh : (arriveAt (.drive o.drive) j).Heads o rest := ⟨h.orders, h.alone⟩
  unfold arrives
  rw [h.step, if_pos hs]
  refine (checkStep1_of_there hh h.running hs h.busy ⟨rfl, rfl⟩ (x := (j.drive o.drive).ejected) rfl).trans ?_
  have ho : { o with step := 1 } = o := by rw [← hs]
  cases (j.drive o.drive).ejected with
  | true => rfl
  | false => simp only [Bool.false_eq_true, if_false, ho]; rfl

/-- The record of a drive whose platter is taken from its mouth (R73, R79); in FAULT it stays so (R154), unless CLEAR DRIVE has
begun (R157). -/
def Drive.emptied (x : Drive) : Drive :=
  if x.state = .fault ∧ x.clearing = false then { x with platter := none, ejected := false, limit := none }
  else { x with
    platter := none, ejected := false, limit := none, state := .empty, reason := none, clearing := false }

/-- The jukebox as the grip of step 2 leaves it, with its order at the next step (R79). -/
def Jukebox.taken (e : Env) (o : Order) (rest : List Order) (k : Nat) (j : Jukebox) : Jukebox :=
  { ((j.onDrive o.drive Drive.emptied).onPlatter k fun r => { r with location := some .picker }) with
    orders := { o with step := if o.kind = .turnover then 5 else 3 } :: rest
    picker := { j.picker with gripped := some k, stepLimit := some (e.now + 15000) } }

theorem taken_drive : (j.taken e o rest k).drive o.drive = (j.drive o.drive).emptied :=
  onDrive_drive_self j o.drive Drive.emptied

theorem takeFromMouth_eq (d : Fin 4) :
    takeFromMouth d k j = (j.onDrive d Drive.emptied).onPicker fun p => { p with gripped := some k } := by
  have hd : (j.onDrive d fun x =>
      let y := { x with platter := none, ejected := false, limit := none }
      if x.state = .fault && !x.clearing then y
      else { y with state := .empty, reason := none, clearing := false }) = j.onDrive d Drive.emptied :=
    onDrive_congr (by simp [Drive.emptied])
  exact congrArg (Jukebox.onPicker · _) hd

/-- Step 2 of an order can grip the outgoing platter `k` out of the mouth of its drive (R79). -/
structure Jukebox.AtMouth (j : Jukebox) (o : Order) (k : Nat) : Prop where
  step : o.step = 2
  outgoing : o.outgoing = some k
  free : j.picker.gripped = none
  inside : (j.drive o.drive).platter = some k

/-- What the grip of step 2 leaves, and then how the drive goes on (R79, R164). -/
theorem gripsAtDrive_of_step2 (h : j.Runs o rest) (hm : j.AtMouth o k) :
    gripsAtDrive e j =
      let t := j.taken e o rest k
      let u := if o.forOffline then t
        else if o.kind = .returnHome && (t.drive o.drive).leaves then goOffline o.drive t
        else driveFree e o.drive false t
      if (j.drive o.drive).clearing then examineHead e u else u := by
  have ht : toStep e o.drive (if o.kind = .turnover then 5 else 3)
      ((takeFromMouth o.drive k j).onPlatter k fun r => { r with location := some .picker }) = j.taken e o rest k := by
    rw [takeFromMouth_eq]
    exact toStep_of_heads (j := ((j.onDrive o.drive Drive.emptied).onPicker _).onPlatter k _) ⟨h.orders, h.alone⟩ (by exact h.busy) _
  unfold gripsAtDrive
  rw [h.step, if_pos hm.step]
  dsimp only
  rw [hm.outgoing, Option.filter_some, if_pos (by simp [Jukebox.canGrip, hm.free, hm.inside])]
  dsimp only
  rw [ht]

/-- An order with an incoming platter keeps the drive for it (R83). -/
theorem gripsAtDrive_keeps (h : j.Runs o rest) (hm : j.AtMouth o k) (hk : o.kind ≠ .returnHome)
    (hc : (j.drive o.drive).clearing = false) : gripsAtDrive e j = j.taken e o rest k := by
  have hf : driveFree e o.drive false (j.taken e o rest k) = j.taken e o rest k :=
    driveFree_of_order (Jukebox.Heads.orderOf (j := j.taken e o rest k)
      (o := { o with step := if o.kind = .turnover then 5 else 3 }) ⟨rfl, h.alone⟩) hk false
  rw [gripsAtDrive_of_step2 h hm]
  simp only [hc, hk, decide_false, Bool.false_and, Bool.false_eq_true, if_false, hf, ite_self]

/-- A drive goes OFFLINE at the grip when its flag is set, but in a FAULT that CLEAR DRIVE has not begun to end (R154, R164). -/
theorem emptied_leaves_iff {x : Drive} (hw : x.work = none) (hp : x.parked = none) :
    x.emptied.leaves = true ↔ x.offlineFlag = true ∧ ¬ (x.state = .fault ∧ x.clearing = false) := by
  unfold Drive.emptied
  split
  · next h => simp [Drive.leaves, h]
  · next h => simp [Drive.leaves, hw, hp, h]

/-- A drive that stays in service after the grip finds no work (R55). -/
theorem driveFree_of_taken (hw : (j.drive o.drive).work = none) (hp : (j.drive o.drive).parked = none) (hcalm : j.Calm e)
    (hl : ¬ (j.drive o.drive).emptied.leaves = true) :
    driveFree e o.drive false (j.taken e o rest k) = j.taken e o rest k := by
  have hparked : (j.drive o.drive).emptied.parked = none := by
    unfold Drive.emptied
    split <;> exact hp
  refine driveFree_of_calm (j := j.taken e o rest k) hcalm (by rw [taken_drive, hparked]) ?_
  rw [taken_drive]
  intro hf
  have hs : (j.drive o.drive).state = .fault ∧ (j.drive o.drive).clearing = false := by
    by_contra hs
    refine hl ((emptied_leaves_iff hw hp).2 ⟨?_, hs⟩)
    rwa [Drive.emptied, if_neg hs] at hf
  rw [Drive.emptied, if_pos hs]
  simp [hs]

/-- The jukebox as a RETURN HOME's grip leaves it when the drive finds no work: a flagged drive is OFFLINE, but for the RETURN
HOME of R74 (R164, log entry 16). -/
def Jukebox.takenHome (e : Env) (o : Order) (rest : List Order) (k : Nat) (j : Jukebox) : Jukebox :=
  if (j.drive o.drive).offlineFlag = true ∧ o.forOffline = false ∧
      ¬ ((j.drive o.drive).state = .fault ∧ (j.drive o.drive).clearing = false) then
    (j.taken e o rest k).onDrive o.drive fun x => { x with state := .offline, offlineFlag := false }
  else j.taken e o rest k

theorem takenHome_table : (j.takenHome e o rest k).table = j.table := by
  unfold Jukebox.takenHome
  split <;> rfl

/-- A RETURN HOME leaves a drive that finds no work, or goes OFFLINE (R74, R79, R164). -/
theorem leavesOrFrees_of_taken (hk : o.kind = .returnHome) (hw : (j.drive o.drive).work = none)
    (hp : (j.drive o.drive).parked = none) (hcalm : j.Calm e) :
    (if o.forOffline then j.taken e o rest k
      else if o.kind = .returnHome && ((j.taken e o rest k).drive o.drive).leaves then goOffline o.drive (j.taken e o rest k)
      else driveFree e o.drive false (j.taken e o rest k)) = j.takenHome e o rest k := by
  have hl := emptied_leaves_iff hw hp
  unfold Jukebox.takenHome
  rw [taken_drive, hk]
  cases o.forOffline with
  | true => simp
  | false =>
    by_cases h : (j.drive o.drive).emptied.leaves = true
    · obtain ⟨hf, hs⟩ := hl.1 h
      rw [h, if_pos (show _ ∧ false = false ∧ _ from ⟨hf, rfl, hs⟩)]
      rfl
    · rw [if_neg (show ¬ (_ ∧ false = false ∧ _) from fun ⟨hf, _, hs⟩ => h (hl.2 ⟨hf, hs⟩)),
        driveFree_of_taken hw hp hcalm h, Bool.eq_false_iff.2 h]
      rfl

theorem gripsAtDrive_takesHome (h : j.Runs o rest) (hm : j.AtMouth o k) (hk : o.kind = .returnHome)
    (hw : (j.drive o.drive).work = none) (hpk : (j.drive o.drive).parked = none) (hcalm : j.Calm e)
    (hc : (j.drive o.drive).clearing = false ∨ j.NoIntake) : gripsAtDrive e j = j.takenHome e o rest k := by
  rw [gripsAtDrive_of_step2 h hm]
  dsimp only
  rw [leavesOrFrees_of_taken hk hw hpk hcalm]
  obtain hc | hn := hc
  · rw [hc, if_neg (by decide)]
  · rw [examineHead_of_noIntake (by rw [Jukebox.NoIntake, takenHome_table]; exact hn), ite_self]

end take

/-- Settles O49: the picker's arrival, and the grip by the kind of the order. -/
theorem pickerTakesFromTheDrive : Obligations.PickerTakesFromTheDrive := by
  intro s o rest hp hb hi ho hr ha
  have hh : s.fresh.jb.Runs o rest := ⟨⟨ho, ha⟩, hr, hb, hi⟩
  refine ⟨fun h1 => event_of_powered (f := arrives) hp (arrives_of_step1 hh h1), fun k h2 hk hg hx => ?_⟩
  have hm : s.fresh.jb.AtMouth o k := ⟨h2, hk, hg, hx⟩
  intro x stays taken
  have htaken : taken s.fresh.jb = s.fresh.jb.taken s.env o rest k := by
    have hd : s.fresh.jb.onDrive o.drive _ = s.fresh.jb.onDrive o.drive Drive.emptied := onDrive_congr rfl
    exact congrArg (fun v : Jukebox => { v.onPlatter k fun r => { r with location := some .picker } with
      orders := { o with step := if o.kind = OrderKind.turnover then 5 else 3 } :: rest
      picker := { s.jb.picker with gripped := some k, stepLimit := some (s.now + 15000) } }) hd
  refine ⟨fun hkind hc => ?_, fun hkind hw hpk hcalm hc => ?_⟩
  · exact event_of_powered (f := gripsAtDrive) hp ((gripsAtDrive_keeps hh hm hkind hc).trans htaken.symm)
  · refine event_of_powered (f := gripsAtDrive) hp ((gripsAtDrive_takesHome hh hm hkind hw hpk (e := s.env) (by exact hcalm)
      hc).trans ?_)
    rw [htaken]
    rfl

end Sys2Proof.Machine
end

section
/-! Steps 3 to 6 of an exchange order (R70, R74, R79 to R81, R164). -/

namespace Sys2Proof.Machine

section carry
variable {e : Env} {j : Jukebox} {o : Order} {rest : List Order} {k : Nat}

/-- A BUSY picker that runs an order is PARKED when it has nothing more to run (R81). -/
theorem idled_of_busy {p : Picker} (hb : p.state = .busy) (hr : p.recovering = false) :
    p.idled = { p with state := .parked, stepLimit := none } := by
  unfold Picker.idled
  rw [if_pos ⟨hb, hr⟩, if_pos ⟨hb, hr⟩]

/-- The record of a drive whose RETURN HOME has released its platter: an EMPTY one with its offline flag set is OFFLINE (R74). -/
def Drive.sentHome (x : Drive) : Drive :=
  if x.offlineFlag = true ∧ x.state = .empty then { x with state := .offline, offlineFlag := false } else x

/-- The last order, a RETURN HOME, ends (R74, R79). -/
theorem endReturnHome_of_only (h : j.Heads o []) (hs : o.state ≠ .queued) (hb : j.picker.state = .busy)
    (hr : j.picker.recovering = false) :
    endReturnHome e o.drive j = { j.onDrive o.drive Drive.sentHome with
      orders := [], picker := { j.picker with state := .parked, stepLimit := none } } := by
  have hd : j.onDrive o.drive (fun x =>
      if x.offlineFlag && x.state = .empty then { x with state := .offline, offlineFlag := false } else x) =
      j.onDrive o.drive Drive.sentHome := onDrive_congr (by simp [Drive.sentHome])
  refine (congrArg (removeOrder e o.drive) hd).trans ?_
  refine (removeOrder_of_only (j := j.onDrive o.drive Drive.sentHome) ⟨h.orders, h.alone⟩ hs).trans ?_
  rw [onDrive_picker, idled_of_busy hb hr]

/-- The jukebox with the gripped platter released in its slot (R79). -/
def Jukebox.stored (k : Nat) (j : Jukebox) : Jukebox :=
  { (j.onPlatter k fun r => { r with location := some .slot }) with
    picker := { j.picker with gripped := none, position := some (.slot k), midway := false } }

theorem releasesInSlot_of_step3 (h : j.Runs o rest) (hs : o.step = 3) (ho : o.outgoing = some k)
    (hg : j.picker.gripped = some k) :
    releasesInSlot e j = if o.kind = .returnHome then examineHead e (sweep e (endReturnHome e o.drive (j.stored k)))
      else sweep e (toStep e o.drive 4 (j.stored k)) := by
  unfold releasesInSlot
  rw [h.step, if_pos hs]
  dsimp only
  rw [ho, Option.filter_some, if_pos (decide_eq_true hg)]
  rfl

/-- The release of a RETURN HOME ends it (R79). -/
theorem releasesInSlot_ends (h : j.Runs o []) (hs : o.step = 3) (ho : o.outgoing = some k) (hg : j.picker.gripped = some k)
    (hk : o.kind = .returnHome) (hcalm : j.Calm e) (hn : j.NoIntake)
    (hr : j.picker.recovering = false) :
    releasesInSlot e j = { (j.stored k).onDrive o.drive Drive.sentHome with
      orders := [], picker := { (j.stored k).picker with state := .parked, stepLimit := none } } := by
  rw [releasesInSlot_of_step3 h hs ho hg, if_pos hk,
    endReturnHome_of_only (j := j.stored k) ⟨h.orders, h.alone⟩ h.not_queued h.busy hr,
    sweep_of_calm (by exact hcalm), examineHead_of_noIntake (by exact hn)]

/-- The release of an EXCHANGE goes on with step 4 (R79). -/
theorem releasesInSlot_goesOn (h : j.Runs o rest) (hs : o.step = 3) (ho : o.outgoing = some k)
    (hg : j.picker.gripped = some k) (hk : o.kind ≠ .returnHome) (hcalm : j.Calm e) :
    releasesInSlot e j = { j.stored k with
      orders := { o with step := 4 } :: rest
      picker := { (j.stored k).picker with stepLimit := some (e.now + 15000) } } := by
  rw [releasesInSlot_of_step3 h hs ho hg, if_neg hk, toStep_of_heads (j := j.stored k) ⟨h.orders, h.alone⟩ h.busy,
    sweep_of_calm (by exact hcalm)]

/-- A change of a platter record that keeps its orientation keeps it for every platter. -/
theorem orientation_onPlatter {p : Nat} {f : Platter → Platter} (hf : ∀ r, (f r).orientation = r.orientation) :
    ((j.onPlatter p f).platter k).orientation = (j.platter k).orientation := by
  rw [onPlatter_platter]
  split
  · next h => rw [hf, h.1]
  · rfl

/-- The jukebox with the incoming platter gripped out of its slot (R80). -/
def Jukebox.lifted (k : Nat) (j : Jukebox) : Jukebox :=
  { (j.onPlatter k fun r => { r with location := some .picker }) with
    picker := { j.picker with gripped := some k, position := some (.slot k), midway := false } }

/-- The grip of the incoming platter: step 5 turns it to its wanted side, step 6 inserts it (R80). -/
theorem gripsIncoming_of_step4 (h : j.Runs o rest) (hs : o.step = 4) (ho : o.incoming = some k)
    (hg : j.picker.gripped = none) (hl : (j.platter k).location = some .slot) :
    gripsIncoming e j = { (j.onPlatter k fun r => { r with location := some .picker }) with
      orders := { o with step := if o.wanted = some (j.platter k).orientation then 6 else 5 } :: rest
      picker := { j.picker with
        gripped := some k, position := some (.slot k), midway := false, stepLimit := some (e.now + 15000) } } := by
  have hf : (o.incoming.filter fun p => j.canGrip p .slot) = some k := by simp [ho, Jukebox.canGrip, hg, hl]
  unfold gripsIncoming
  rw [h.step, if_pos hs]
  dsimp only
  rw [hf]
  dsimp only
  rw [orientation_onPlatter (by exact fun _ => rfl)]
  exact toStep_of_heads (j := j.lifted k) (rest := rest) ⟨h.orders, h.alone⟩ h.busy _

/-- The end of the flip (R80, R154). -/
theorem flipEnds_of_step5 (h : j.Runs o rest) (hs : o.step = 5) (hg : j.picker.gripped = some k) :
    flipEnds e j = { (j.onPlatter k fun r => { r with orientation := if r.orientation = .a then .b else .a }) with
      orders := { o with step := if o.kind = .returnHome then 3 else 6 } :: rest
      picker := { j.picker with stepLimit := some (e.now + 15000) } } := by
  have hf : (fun r : Platter => { r with orientation := otherSide r.orientation }) =
      fun r => { r with orientation := if r.orientation = .a then .b else .a } := by
    funext r
    cases r.orientation <;> rfl
  unfold flipEnds
  rw [h.step, if_pos hs, hg, hf]
  exact toStep_of_heads (j := j.onPlatter k _) ⟨h.orders, h.alone⟩ (by exact h.busy) _

/-- The jukebox with the gripped platter inserted in drive `d`, which begins to spin up (R70, R81). -/
def Jukebox.loaded (e : Env) (k : Nat) (d : Fin 4) (j : Jukebox) : Jukebox :=
  { ((j.onPlatter k fun r => { r with location := some (.drive d) }).onDrive d fun x =>
      { x with state := .loading, platter := some k, limit := some (e.now + 10000) }) with
    picker := { j.picker with gripped := none, position := some (.drive d), midway := false } }

/-- The seating ends the order and the drive begins to spin up (R70, R81). -/
theorem seated_of_step6 (h : j.Runs o []) (hs : o.step = 6) (ho : o.incoming = some k) (hg : j.picker.gripped = some k)
    (hd : (j.drive o.drive).platter = none) (hr : j.picker.recovering = false) :
    seated e j = { j.loaded e k o.drive with
      orders := [], picker := { (j.loaded e k o.drive).picker with state := .parked, stepLimit := none } } := by
  have hl : (j.loaded e k o.drive).Heads o [] := ⟨h.orders, h.alone⟩
  unfold seated
  rw [h.step, if_pos hs]
  dsimp only
  rw [ho, Option.filter_some, if_pos (by simp [Jukebox.canSeat, hg, hd])]
  refine (removeOrder_of_only (e := e) hl h.not_queued).trans ?_
  rw [idled_of_busy (by exact h.busy) (by exact hr)]

end carry

/-- Settles O50: each report of steps 3 to 6. -/
theorem pickerCarriesBetweenSlotAndDrive : Obligations.PickerCarriesBetweenSlotAndDrive := by
  intro s o rest hp hb hr hi ho hs ha calm
  have h : s.fresh.jb.Runs o rest := ⟨⟨ho, ha⟩, hs, hb, hi⟩
  refine ⟨fun k h3 hk hg hkind hrest hcalm hn => ?_, fun k h3 hk hg hkind hcalm => ?_, fun k h4 hk hg hl => ?_,
    fun k h5 hg => ?_, fun k h6 hk hg hd hrest => ?_⟩
  · subst hrest
    exact event_of_powered (f := releasesInSlot) hp (releasesInSlot_ends h h3 hk hg hkind hcalm hn hr)
  · exact event_of_powered (f := releasesInSlot) hp (releasesInSlot_goesOn h h3 hk hg hkind hcalm)
  · exact event_of_powered (f := gripsIncoming) hp (gripsIncoming_of_step4 h h4 hk hg hl)
  · exact event_of_powered (f := flipEnds) hp (flipEnds_of_step5 h h5 hg)
  · subst hrest
    exact event_of_powered (f := seated) hp (seated_of_step6 h h6 hk hg hd hr)

end Sys2Proof.Machine
end

section
/-! RESUME PICKER and the resumption at the end of a door settle (R78, R82, R88). -/

namespace Sys2Proof.Machine

section resume
variable {e : Env} {j : Jukebox} {o : Order} {rest : List Order}

theorem currentOrder_of_head (h : j.orders = o :: rest) (hs : o.state ≠ .queued) : j.currentOrder = some o := by
  rw [Jukebox.currentOrder, h]
  simp [hs]

theorem startNext_of_no_order (h : j.orders = []) : startNext e j = j := by
  unfold startNext
  rw [h]
  exact ite_self j

/-- With no order to go on with, the picker is PARKED (R77, R160). -/
theorem goParked_of_no_order (h : j.orders = []) :
    goParked e j = { j with picker := { j.picker with state := .parked, stepLimit := none } } :=
  startNext_of_no_order h

/-! ## The picker returns to its state (R88) -/

/-- The jukebox with the picker back in the state its halt record holds (R88). -/
def Jukebox.unhalted (b : PickerState) (j : Jukebox) : Jukebox :=
  { j with picker := { j.picker with state := b, halt := none } }

theorem resumePicker_eq {h : Halt} (hh : j.picker.halt = some h) :
    resumePicker e j = if h.back = .inventory then inventoryOn e (j.unhalted h.back)
      else if j.picker.recovering then freshLimit e (j.unhalted h.back)
      else match j.currentOrder with
        | some o => goOn e o.drive o.step (j.unhalted h.back)
        | none => goParked e (j.unhalted h.back) := by
  unfold resumePicker
  rw [hh]
  rfl

theorem resumePicker_parked {h : Halt} (hh : j.picker.halt = some h) (hb : h.back = .parked)
    (hr : j.picker.recovering = false) (ho : j.orders = []) :
    resumePicker e j =
      { j with picker := { j.picker with state := .parked, halt := none, stepLimit := none } } := by
  have hp : resumePicker e j = goParked e (j.unhalted .parked) := by
    rw [resumePicker_eq hh, hb, hr, Jukebox.currentOrder, ho]
    rfl
  exact hp.trans (goParked_of_no_order ho)

/-- The HALTED order at the head goes on at its step (R88). -/
theorem resumePicker_of_heads {h : Halt} (hh : j.picker.halt = some h) (hb : h.back = .busy)
    (hr : j.picker.recovering = false) (ho : j.Heads o rest) (hs : o.state = .halted) :
    resumePicker e j = goOn e o.drive o.step (j.unhalted .busy) := by
  rw [resumePicker_eq hh, hb, hr, currentOrder_of_head ho.orders (by rw [hs]; decide)]
  rfl

/-- An interrupted step after the first begins again with a full limit (R82, R88). -/
theorem resumePicker_later {h : Halt} (hh : j.picker.halt = some h) (hb : h.back = .busy)
    (hr : j.picker.recovering = false) (ho : j.Heads o rest) (hs : o.state = .halted) (h1 : o.step ≠ 1) :
    resumePicker e j = { j with
      orders := { o with state := .running } :: rest
      picker := { j.picker with state := .busy, halt := none, stepLimit := some (e.now + 15000) } } :=
  (resumePicker_of_heads hh hb hr ho hs).trans (goOn_of_later (j := j.unhalted .busy) ⟨ho.orders, ho.alone⟩ h1)

/-- An interrupted step 1 sets off for its drive again (R78, R88). -/
theorem resumePicker_step1 {h : Halt} (hh : j.picker.halt = some h) (hb : h.back = .busy)
    (hr : j.picker.recovering = false) (ho : j.Heads o rest) (hs : o.state = .halted) (h1 : o.step = 1) :
    resumePicker e j = { j with
      orders := { o with
        state := .running
        step := if j.picker.AtDrive o.drive ∧ (j.drive o.drive).ejected = true then 2 else 1 } :: rest
      picker := { j.picker with
        state := .busy, halt := none
        stepLimit := if j.picker.AtDrive o.drive ∧ ¬ (j.drive o.drive).ejected = true then none
          else some (e.now + 15000) } } := by
  refine (resumePicker_of_heads hh hb hr ho hs).trans ?_
  rw [h1]
  exact goOn_of_step1 (j := j.unhalted .busy) ⟨ho.orders, ho.alone⟩

/-- An interrupted recovery step begins again (R88, R161). -/
theorem resumePicker_recovering {h : Halt} (hh : j.picker.halt = some h) (hb : h.back = .busy)
    (hr : j.picker.recovering = true) :
    resumePicker e j =
      { j with picker := { j.picker with state := .busy, halt := none, stepLimit := some (e.now + 15000) } } := by
  have hp : resumePicker e j = freshLimit e (j.unhalted .busy) := by
    rw [resumePicker_eq hh, hb, hr]
    rfl
  exact hp.trans (freshLimit_of_active (.inl rfl))

/-- An interrupted slot check begins again (R88, R190). -/
theorem resumePicker_check {h : Halt} {n : Nat} (hh : j.picker.halt = some h) (hb : h.back = .inventory)
    (hi : j.picker.inventory = some (.slot n)) :
    resumePicker e j =
      { j with picker := { j.picker with state := .inventory, halt := none, stepLimit := some (e.now + 15000) } } := by
  have hp : resumePicker e j = checkCollect e (freshLimit e (j.unhalted .inventory)) := by
    rw [resumePicker_eq hh, hb]
    unfold inventoryOn
    simp only [onPicker_picker, Jukebox.unhalted, hi]
    rfl
  refine hp.trans ((congrArg (checkCollect e) (freshLimit_of_active (.inr rfl))).trans ?_)
  unfold checkCollect
  simp only [Jukebox.unhalted, hi]

/-! ## RESUME PICKER (R88) -/

theorem resumePicker_acts : ActsOnJukebox .resumePicker resumeCommand := ⟨rfl, rfl, rfl, fun _ => rfl⟩

theorem resumeCommand_of_open (h : j.picker.door ≠ .closed) : resumeCommand e j = .error .doorOpen :=
  if_pos (bne_iff_ne.2 h)

theorem resumeCommand_of_not_awaiting (hd : j.picker.door = .closed)
    (h : j.picker.state ≠ .halted ∨ ∀ h, j.picker.halt = some h → h.awaiting = false) :
    resumeCommand e j = .error .state := by
  refine (if_neg (by simp [hd])).trans (if_neg ?_)
  simp only [Bool.and_eq_true, decide_eq_true_eq, Option.any_eq_true, not_and, not_exists, Bool.not_eq_true]
  exact fun hs h' hh => h.elim (absurd hs) fun h => h h' hh

theorem resumeCommand_of_awaiting {h : Halt} (hd : j.picker.door = .closed) (hs : j.picker.state = .halted)
    (hh : j.picker.halt = some h) (ha : h.awaiting = true) : resumeCommand e j = .ok (resumePicker e j) :=
  (if_neg (by simp [hd])).trans (if_pos (by simp [hs, hh, ha]))

end resume

/-- Settles O46: the refusals, and the resumption by the state the picker had, for the command and for the settle end alike. -/
theorem resumptionRestartsTheStep : Obligations.ResumptionRestartsTheStep := by
  intro s src hm p cmd
  refine ⟨fun hd => ?_, fun hd hn => ?_, fun h hs hh => ?_⟩
  · exact resumePicker_acts.exec_error rfl hm (resumeCommand_of_open (j := s.asked src) hd)
  · exact resumePicker_acts.exec_error rfl hm (resumeCommand_of_not_awaiting (j := s.asked src) hd hn)
  intro restarted
  have restart {f : Jukebox → Jukebox} (hc : resumePicker s.env (s.asked src) = { f s.jb with bus := (s.asked src).bus })
      (ht : resumePicker s.env s.fresh.jb.settled = f s.fresh.jb.settled) : restarted f := by
    refine ⟨fun hd ha => ?_, fun hd ha => ?_⟩
    · exact resumePicker_acts.exec_done rfl hm
        ((resumeCommand_of_awaiting (j := s.asked src) hd hs hh ha).trans (congrArg Except.ok hc))
    · exact event_of_powered (f := settleEnds) hm.1
        ((settleEnds_of_halted (j := s.fresh.jb) hd hs).trans ((if_pos ha).trans ht))
  refine ⟨fun hb hr ho => ?_, fun o rest hb hr ho hst h1 ha => ?_, fun o rest hb hr ho hst h1 ha => ?_, fun hb hr => ?_,
    fun n hb hi => ?_⟩
  · exact restart (resumePicker_parked (j := s.asked src) hh hb hr ho)
      (resumePicker_parked (j := s.fresh.jb.settled) hh hb hr ho)
  · exact restart (resumePicker_later (j := s.asked src) hh hb hr ⟨ho, ha⟩ hst h1)
      (resumePicker_later (j := s.fresh.jb.settled) hh hb hr ⟨ho, ha⟩ hst h1)
  · exact restart (resumePicker_step1 (j := s.asked src) hh hb hr ⟨ho, ha⟩ hst h1)
      (resumePicker_step1 (j := s.fresh.jb.settled) hh hb hr ⟨ho, ha⟩ hst h1)
  · exact restart (resumePicker_recovering (j := s.asked src) hh hb hr)
      (resumePicker_recovering (j := s.fresh.jb.settled) hh hb hr)
  · exact restart (resumePicker_check (j := s.asked src) hh hb hi) (resumePicker_check (j := s.fresh.jb.settled) hh hb hi)

end Sys2Proof.Machine
end

section
/-! CLEAR PICKER, the recovery step and the HALTED order after it (R82, R100, R152, R158 to R160). -/

namespace Sys2Proof.Machine

/-! ## One segment of the table -/

section segments
variable {j : Jukebox} {r : SegRef} {q : Request} {g : Segment}

/-- The request an initiator and a tag name, after a change of it that keeps them. -/
theorem request_onRequest {i : Fin 7} {t : Fin 8} {f : Request → Request}
    (hf : ∀ q, (f q).initiator = q.initiator ∧ (f q).tag = q.tag) :
    (j.onRequest i t f).request i t = (j.request i t).map f := by
  unfold Jukebox.request Jukebox.onRequest
  dsimp only
  rw [List.find?_map]
  have hp : ((fun q : Request => decide (q.initiator = i) && decide (q.tag = t)) ∘
      fun q => if q.initiator = i && q.tag = t then f q else q) =
      fun q => decide (q.initiator = i) && decide (q.tag = t) := by
    funext q
    simp only [Function.comp]
    split
    · rw [(hf q).1, (hf q).2]
    · rfl
  rw [hp]
  cases hq : j.table.find? fun q => decide (q.initiator = i) && decide (q.tag = t) with
  | none => rfl
  | some q => rw [Option.map_some, Option.map_some, if_pos (by simpa using List.find?_some hq)]

/-- A segment after a change of it. -/
theorem segment_onSegment (h : j.segment r = some (q, g)) (f : Segment → Segment) :
    (j.onSegment r f).segment r = some (q.onSegment r.index f, f g) := by
  obtain ⟨q', hq, hg⟩ := Option.bind_eq_some_iff.1 h
  obtain ⟨g', hg', he⟩ := Option.map_eq_some_iff.1 hg
  cases he
  unfold Jukebox.segment Jukebox.onSegment
  rw [request_onRequest (f := fun q => q.onSegment r.index f) fun _ => ⟨rfl, rfl⟩, hq, Option.map_some, Option.bind_some]
  simp [Request.onSegment, hg']

theorem onRequest_onRequest {i : Fin 7} {t : Fin 8} {f f' : Request → Request}
    (hf : ∀ q, (f q).initiator = q.initiator ∧ (f q).tag = q.tag) :
    (j.onRequest i t f).onRequest i t f' = j.onRequest i t (f' ∘ f) := by
  unfold Jukebox.onRequest
  dsimp only
  rw [List.map_map]
  congr 1
  refine List.map_congr_left fun q _ => ?_
  simp only [Function.comp]
  split
  · next h => rw [(hf q).1, (hf q).2, if_pos h]
  · rfl

/-- One change of a segment after another. -/
theorem onSegment_onSegment (f f' : Segment → Segment) :
    (j.onSegment r f).onSegment r f' = j.onSegment r (f' ∘ f) := by
  unfold Jukebox.onSegment
  rw [onRequest_onRequest (f := fun q => q.onSegment r.index f) fun _ => ⟨rfl, rfl⟩]
  congr 1
  funext q
  simp [Request.onSegment, List.modify_modify_eq]

theorem testReach_of_write (h : j.segment r = some (q, g)) (hk : q.kind = .write) : testReach r j = j := by
  unfold testReach
  simp [h, hk]

/-- A read whose platter cannot be reached goes to its mirror (R100). -/
theorem testReach_of_mirror {m : Nat} (h : j.segment r = some (q, g)) (hk : q.kind = .read)
    (hi : j.picker.inventory = none) (hp : j.reachable (platterOf (g.target .read)) = false) (hs : g.readSide = .primary)
    (hm : g.mirror = some m) (hr : j.reachable (platterOf m) = true) :
    testReach r j = j.onSegment r fun g => { g with readSide := .mirror } := by
  unfold testReach
  simp [h, hk, Jukebox.inventoryRuns, hi, hp, hs, hm, hr]

/-- A write that goes back to its list passes the test of reads. -/
theorem testReach_onSegment_of_write (h : j.segment r = some (q, g)) (hk : q.kind = .write) (f : Segment → Segment) :
    testReach r (j.onSegment r f) = j.onSegment r f := testReach_of_write (segment_onSegment h f) hk

/-- A read that goes back to its list with its platter missing goes to its mirror (R100, R160). -/
theorem testReach_requeued_of_mirror {m : Nat} (h : j.segment r = some (q, g)) (hk : q.kind = .read)
    (hi : j.picker.inventory = none) (hp : (j.platter (g.surface / 2)).present = false) (hs : g.readSide = .primary)
    (hm : g.mirror = some m) (hr : j.reachable (m / 2) = true) :
    testReach r (j.onSegment r (Segment.requeued none)) =
      j.onSegment r fun g => { g with state := .queued, readSide := .mirror } := by
  have hn : (j.onSegment r (Segment.requeued none)).reachable
      (platterOf ((g.requeued none).target .read)) = false := by
    have ht : (g.requeued none).target .read = g.surface := by simp [Segment.target, Segment.requeued, hs]
    rw [ht]
    show ((j.platter (g.surface / 2)).present && _) = false
    rw [hp, Bool.false_and]
  exact (testReach_of_mirror (segment_onSegment h _) hk hi hn hs hm hr).trans (onSegment_onSegment _ _)

end segments

/-! ## The HALTED order after recovery (R160) -/

section recovery
variable {e : Env} {j : Jukebox} {o : Order} {rest : List Order} {k : Nat}

/-- The order at the head of the queue is HALTED (R82). -/
structure Jukebox.Halts (j : Jukebox) (o : Order) (rest : List Order) : Prop extends j.Heads o rest where
  halted : o.state = .halted

theorem Jukebox.Halts.currentOrder (h : j.Halts o rest) : j.currentOrder = some o :=
  currentOrder_of_head h.orders (by rw [h.halted]; decide)

theorem Jukebox.Halts.not_queued (h : j.Halts o rest) : o.state ≠ .queued := by
  rw [h.halted]
  decide

theorem afterRecovery_of_no_order (h : j.orders = []) (home : Option Nat) :
    afterRecovery e home j = { j with picker := { j.picker with state := .parked, stepLimit := none } } := by
  have hc : j.currentOrder = none := by
    rw [Jukebox.currentOrder, h]
    rfl
  unfold afterRecovery
  rw [hc]
  exact goParked_of_no_order h

/-- With nothing gripped the order begins its step again, unless it is in step 4 and its incoming platter is missing (R160). -/
theorem afterRecovery_again (h : j.Halts o rest)
    (hs : o.step = 4 → ∀ k, o.incoming = some k → (j.platter k).present = true) :
    afterRecovery e none j = goOn e o.drive o.step j := by
  have hn : (o.step = 4 && o.incoming.any fun p => !(j.platter p).present) = false := by
    by_contra hc
    simp only [Bool.not_eq_false, Bool.and_eq_true, decide_eq_true_eq, Option.any_eq_true, Bool.not_eq_true'] at hc
    obtain ⟨h4, k, hk, hp⟩ := hc
    rw [hs h4 k hk] at hp
    cases hp
  unfold afterRecovery
  rw [h.currentOrder]
  simp [hn]

theorem afterRecovery_missing (h : j.Halts o rest) (h4 : o.step = 4) (hk : o.incoming = some k)
    (hp : (j.platter k).present = false) :
    afterRecovery e none j = goParked e (handBackMissing e o.drive (dropOrder o.drive j)) := by
  unfold afterRecovery
  rw [h.currentOrder]
  simp [h4, hk, hp]

/-- The outgoing platter of a RETURN HOME has gone home: the order ends (R160, log entry 35). -/
theorem afterRecovery_ends (h : j.Halts o rest) (ho : o.outgoing = some k) (hk : o.kind = .returnHome) :
    afterRecovery e (some k) j =
      examineHead e (endReturnHome e o.drive (j.onPicker fun p => { p with state := .busy })) := by
  unfold afterRecovery
  rw [h.currentOrder]
  simp [ho, hk]

/-- The outgoing platter of an EXCHANGE in step 3 has gone home: step 4 is next (R160). -/
theorem afterRecovery_step4 (h : j.Halts o rest) (ho : o.outgoing = some k) (hk : o.kind = .exchange) (hs : o.step = 3) :
    afterRecovery e (some k) j = goOn e o.drive 4 j := by
  unfold afterRecovery
  rw [h.currentOrder]
  simp [ho, hk, hs]

/-- The incoming platter has gone home: the order becomes an EXCHANGE into the EMPTY drive at step 4 (R160). -/
theorem afterRecovery_exchange (h : j.Halts o rest) (hk : o.kind ≠ .returnHome) (hi : o.incoming = some k)
    (ho : o.kind = .exchange → o.outgoing ≠ some k) :
    afterRecovery e (some k) j =
      goOn e o.drive 4 (j.onOrder o.drive fun o => { o with kind := .exchange, outgoing := none }) := by
  have hn : (some k = o.outgoing && o.kind = .exchange && o.step = 3 : Bool) = false := by
    by_contra hc
    simp only [Bool.not_eq_false, Bool.and_eq_true, decide_eq_true_eq] at hc
    exact ho hc.1.2 hc.1.1.symm
  unfold afterRecovery
  rw [h.currentOrder]
  simp only [Option.isSome_some, Bool.true_and, hn, hk, hi]
  simp

/-! ### The missing incoming platter (R160) -/

/-- The record of a drive whose segment is handed back (R160). -/
def Drive.handsBack (x : Drive) : Drive := { x with work := none, pass := none, left := 0 }

theorem dropOrder_of_only (h : j.orders = [o]) : dropOrder o.drive j = { j with orders := [] } := by
  unfold dropOrder
  rw [h]
  simp

/-- With dispatch enable off a segment that joins its list is only tested (R50, R100). -/
theorem joinList_of_no_dispatch (h : e.settings.dispatch = false) (r : SegRef) : joinList e r j = testReach r j :=
  push_of_no_dispatch h

/-- The drive of an order that ended for a missing platter hands its request segment back and finds no work (R160). -/
theorem handBackMissing_of_request {d : Fin 4} {w : Work} {r : SegRef} {f : Segment → Segment}
    (hw : (j.drive d).work = some w) (hr : w.ref = .request r) (hdis : e.settings.dispatch = false)
    (hp : (j.drive d).parked = none) (hf : (j.drive d).offlineFlag = false)
    (ht : testReach r ((j.onDrive d Drive.handsBack).onSegment r (Segment.requeued (j.drive d).pass)) =
      (j.onDrive d Drive.handsBack).onSegment r f) :
    handBackMissing e d j = (j.onDrive d Drive.handsBack).onSegment r f := by
  have hd : ((j.onDrive d Drive.handsBack).onSegment r f).drive d = (j.drive d).handsBack := onDrive_drive_self j d _
  unfold handBackMissing
  simp only [hw, hr]
  refine (congrArg (driveFree e d false) ((joinList_of_no_dispatch hdis r).trans ht)).trans ?_
  refine driveFree_of_calm (.inl hdis) (by rw [hd]; exact hp) fun hc => ?_
  rw [hd, Drive.handsBack, hf] at hc
  cases hc

/-- The HALTED order of a missing platter ends, and its segment goes back as `f` makes it (R160). -/
theorem afterRecovery_handsBack {w : Work} {r : SegRef} {f : Segment → Segment} (h : j.Halts o []) (h4 : o.step = 4)
    (hk : o.incoming = some k) (hm : (j.platter k).present = false)
    (hw : (j.drive o.drive).work = some w) (hr : w.ref = .request r) (hdis : e.settings.dispatch = false)
    (hp : (j.drive o.drive).parked = none) (hf : (j.drive o.drive).offlineFlag = false)
    (ht : testReach r (({ j with orders := [] }.onDrive o.drive Drive.handsBack).onSegment r
        (Segment.requeued (j.drive o.drive).pass)) =
      ({ j with orders := [] }.onDrive o.drive Drive.handsBack).onSegment r f) :
    afterRecovery e none j = { (j.onDrive o.drive Drive.handsBack).onSegment r f with
      orders := [], picker := { j.picker with state := .parked, stepLimit := none } } := by
  rw [afterRecovery_missing h h4 hk hm, dropOrder_of_only h.orders,
    handBackMissing_of_request (j := { j with orders := [] }) hw hr hdis hp hf ht]
  exact goParked_of_no_order rfl

end recovery

/-! ## CLEAR PICKER (R159) -/

section clear
variable {e : Env} {j : Jukebox} {x : Sensor} {k : Nat}

theorem clearPicker_acts (x : Sensor) : ActsOnJukebox (.clearPicker x) fun e => clearPicker e x :=
  ⟨rfl, rfl, rfl, fun _ => rfl⟩

theorem clearPicker_of_open (h : j.picker.door ≠ .closed) : clearPicker e x j = .error .doorOpen :=
  if_pos (bne_iff_ne.2 h)

theorem clearPicker_of_not_fault (hd : j.picker.door = .closed) (h : j.picker.state ≠ .fault) :
    clearPicker e x j = .error .state :=
  (if_neg (by simp [hd])).trans (if_pos (bne_iff_ne.2 h))

/-- Past its first two checks CLEAR PICKER goes by the gripped platter, and by its home slot (R159). -/
theorem clearPicker_of_fault (hd : j.picker.door = .closed) (hs : j.picker.state = .fault) :
    clearPicker e x j = if (sensed x j.picker.gripped).any (fun p => j.picker.slotTaken.contains p) then .error .state
      else match sensed x j.picker.gripped with
        | some k => .ok { j with picker := { j.picker with
            state := .busy, gripped := some k, reason := none, recovering := true, stepLimit := some (e.now + 15000) } }
        | none => .ok (endRecovery e none { j with picker := { j.picker with gripped := none, reason := none } }) := by
  unfold clearPicker
  dsimp only
  rw [if_neg (by simp [hd]), if_neg (by simp [hs])]
  split
  · rfl
  · cases sensed x j.picker.gripped with
    | none => rfl
    | some k => exact congrArg Except.ok (freshLimit_of_active (j := { j with picker := { j.picker with
        state := .busy, gripped := some k, reason := none, recovering := true } }) (.inl rfl))

theorem clearPicker_of_taken (hd : j.picker.door = .closed) (hs : j.picker.state = .fault)
    (hg : sensed x j.picker.gripped = some k) (ht : k ∈ j.picker.slotTaken) : clearPicker e x j = .error .state := by
  rw [clearPicker_of_fault hd hs, hg, if_pos (by simpa using ht)]

/-- A gripped platter is carried home in one recovery step (R159). -/
theorem clearPicker_carries (hd : j.picker.door = .closed) (hs : j.picker.state = .fault)
    (hg : sensed x j.picker.gripped = some k) (ht : k ∉ j.picker.slotTaken) :
    clearPicker e x j = .ok { j with picker := { j.picker with
      state := .busy, gripped := some k, reason := none, recovering := true, stepLimit := some (e.now + 15000) } } := by
  rw [clearPicker_of_fault hd hs, hg, if_neg (by simpa using ht)]

/-- The jukebox with nothing gripped and no recovery step in hand (R159). -/
def Jukebox.cleared (j : Jukebox) : Jukebox :=
  { j with picker := { j.picker with gripped := none, reason := none, recovering := false } }

/-- Where no inventory runs, the end of recovery is the affair of the HALTED order (R160). -/
theorem endRecovery_of_orders (hi : j.picker.inventory = none) (home : Option Nat) :
    endRecovery e home j = afterRecovery e home { j with picker := { j.picker with recovering := false } } :=
  if_neg (by
    rw [Jukebox.inventoryRuns, onPicker_picker, hi]
    decide)

/-- With nothing gripped the picker goes on at once (R159, R160). -/
theorem clearPicker_goesOn (hd : j.picker.door = .closed) (hs : j.picker.state = .fault)
    (hg : sensed x j.picker.gripped = none) (hi : j.picker.inventory = none) :
    clearPicker e x j = .ok (afterRecovery e none j.cleared) := by
  rw [clearPicker_of_fault hd hs, hg, if_neg (by simp)]
  exact congrArg Except.ok (endRecovery_of_orders (j := { j with
    picker := { j.picker with gripped := none, reason := none } }) hi none)

/-! ## The recovery step (R159) -/

theorem recoveryRelease_fails (hs : j.picker.state = .busy) (hr : j.picker.recovering = true)
    (hg : j.picker.gripped = some k) : recoveryRelease e false j = pickerFault .grip true j := by
  unfold recoveryRelease
  rw [hs, hr, hg]
  rfl

/-- The jukebox with the recovery step's platter in its slot (R159). -/
def Jukebox.recovered (k : Nat) (j : Jukebox) : Jukebox :=
  { j.stored k with picker := { (j.stored k).picker with recovering := false } }

theorem recoveryRelease_of_calm (hs : j.picker.state = .busy) (hr : j.picker.recovering = true)
    (hg : j.picker.gripped = some k) (hi : j.picker.inventory = none) (hcalm : j.Calm e) :
    recoveryRelease e true j = afterRecovery e (some k) (j.recovered k) := by
  have hsw : sweep e ((letGo k j).onPlatter k fun r => { r with location := some .slot }) = j.stored k :=
    sweep_of_calm hcalm
  have hi' : (letGo k j).picker.inventory = none := hi
  unfold recoveryRelease
  rw [hs, hr, hg, if_pos (by decide)]
  dsimp only
  rw [if_pos rfl, hi']
  dsimp only
  rw [hsw]
  exact endRecovery_of_orders (j := j.stored k) hi (some k)

end clear

/-- Settles O47: the refusals in their order, the recovery step, and the HALTED order by the table of R160. -/
theorem clearPickerRecovers : Obligations.ClearPickerRecovers := by
  intro s src x hm p cmd grip
  have hgrip : sensed x (s.asked src).picker.gripped = grip := by cases x <;> rfl
  have refused {r} (h : clearPicker s.env x (s.asked src) = .error r) :
      cmd = .next (s.answered src 0x25 .refused r) := (clearPicker_acts x).exec_error rfl hm h
  have done {f : Jukebox → Jukebox}
      (h : clearPicker s.env x (s.asked src) = .ok { f s.jb with bus := (s.asked src).bus }) :
      cmd = .next (s.jbDone src 0x25 f) := (clearPicker_acts x).exec_done rfl hm h
  have emptyHanded {f : Jukebox → Jukebox} (hd : p.door = .closed) (hs : p.state = .fault) (hk : grip = none)
      (hi : p.inventory = none)
      (h : afterRecovery s.env none (s.asked src).cleared = { f s.jb with bus := (s.asked src).bus }) :
      cmd = .next (s.jbDone src 0x25 f) :=
    done ((clearPicker_goesOn (j := s.asked src) hd hs (hgrip.trans hk) hi).trans (congrArg Except.ok h))
  refine ⟨fun hd => refused (clearPicker_of_open (j := s.asked src) hd),
    fun hd hs => refused (clearPicker_of_not_fault (j := s.asked src) hd hs), fun hd hs => ⟨fun k hk ht => ?_,
      fun k hk ht => ?_, fun hk hi ho => ?_, fun o rest hk hi ho hh hst ha => ?_, fun o rest hk hi ho hh h1 ha => ?_,
      fun o rest k hk hi ho hh h4 hin ha => ?_⟩, fun k hs hr hg => ⟨?_, fun hi ho hn => ?_, fun o rest hi ho hh ha hcalm => ?_⟩⟩
  · exact refused (clearPicker_of_taken (j := s.asked src) hd hs (hgrip.trans hk) ht)
  · exact done (clearPicker_carries (j := s.asked src) hd hs (hgrip.trans hk) ht)
  · exact emptyHanded hd hs hk hi (afterRecovery_of_no_order (j := (s.asked src).cleared) ho none)
  · have hh' : (s.asked src).cleared.Halts o rest := ⟨⟨ho, ha⟩, hh⟩
    have h4 : o.step ≠ 4 := fun h4 => by rw [h4] at hst; simp at hst
    have h1 : o.step ≠ 1 := fun h1 => by rw [h1] at hst; simp at hst
    exact emptyHanded hd hs hk hi
      ((afterRecovery_again hh' fun h => absurd h h4).trans (goOn_of_later hh'.toHeads h1))
  · have hh' : (s.asked src).cleared.Halts o rest := ⟨⟨ho, ha⟩, hh⟩
    exact emptyHanded hd hs hk hi ((afterRecovery_again hh' fun h => absurd h (by omega)).trans
      ((congrArg (goOn s.env o.drive · _) h1).trans (goOn_of_step1 hh'.toHeads)))
  · have hh' : (s.asked src).cleared.Halts o rest := ⟨⟨ho, ha⟩, hh⟩
    refine ⟨fun hp => ?_, fun w r q g hp hkind hrest hdis => ?_⟩
    · have hpres : o.step = 4 → ∀ k, o.incoming = some k → ((s.asked src).cleared.platter k).present = true := by
        intro _ k' hk'
        rw [hin] at hk'
        cases hk'
        exact hp
      exact emptyHanded hd hs hk hi ((afterRecovery_again hh' hpres).trans (goOn_of_later hh'.toHeads (by omega)))
    · intro x hw hr hg hpk hf handsBack
      subst hrest
      have back {f : Segment → Segment}
          (ht : testReach r (({ (s.asked src).cleared with orders := [] }.onDrive o.drive Drive.handsBack).onSegment r
              (Segment.requeued x.pass)) =
            ({ (s.asked src).cleared with orders := [] }.onDrive o.drive Drive.handsBack).onSegment r f) : handsBack f :=
        emptyHanded hd hs hk hi (afterRecovery_handsBack hh' h4 hin hp hw hr hdis hpk hf ht)
      refine ⟨fun m hq hpass hside hsurf hm hreach => back ?_, fun y hq hpass => back ?_⟩
      · rw [hpass]
        exact testReach_requeued_of_mirror (by exact hg) hq hi (by rw [hsurf]; exact hp) hside hm (by exact hreach)
      · rw [hpass]
        exact testReach_onSegment_of_write (by exact hg) hq _
  · exact event_of_powered (f := fun e => recoveryRelease e false) hm.1 (recoveryRelease_fails hs hr hg)
  · exact event_of_powered (f := fun e => recoveryRelease e true) hm.1
      ((recoveryRelease_of_calm (j := s.fresh.jb) hs hr hg hi (.inr hn)).trans (afterRecovery_of_no_order (by exact ho) _))
  · have hh' : (s.fresh.jb.recovered k).Halts o rest := ⟨⟨ho, ha⟩, hh⟩
    intro home goesOn
    have released {f : Jukebox → Jukebox} (h : afterRecovery s.env (some k) (s.fresh.jb.recovered k) = f s.fresh.jb) :
        exec (.pickerRecoveryRelease true) s = .next (s.withJb f) :=
      event_of_powered (f := fun e => recoveryRelease e true) hm.1
        ((recoveryRelease_of_calm (e := s.env) (j := s.fresh.jb) hs hr hg hi hcalm).trans h)
    refine ⟨fun hkind hout hrest hn => released ?_, fun hkind hout h3 => released ?_, fun hkind hin hout => released ?_⟩
    · subst hrest
      have hhb : ((s.fresh.jb.recovered k).onPicker fun p => { p with state := .busy }).Heads o [] := ⟨ho, ha⟩
      rw [afterRecovery_ends hh' hout hkind, endReturnHome_of_only hhb hh'.not_queued rfl rfl]
      exact examineHead_of_noIntake hn
    · exact (afterRecovery_step4 hh' hout hkind h3).trans (goOn_of_later hh'.toHeads (by decide))
    · rw [afterRecovery_exchange hh' hkind hin hout, hh'.onOrder]
      exact goOn_of_later (o := { o with kind := .exchange, outgoing := none }) ⟨rfl, ha⟩ (by decide)

end Sys2Proof.Machine
end

section
/-! The state that refutes O57: the segment its drive holds is DONE already. -/

namespace Sys2Proof.Machine

/-! ## Drive 0 unloads platter 0 and still names a DONE read segment of it -/

/-- A READ segment of surface 0, DONE. -/
def doneSegment : Segment where
  surface := 0
  first := 0
  count := 1
  htype := .sealed
  readRoute := .primary
  writeRoute := .primary
  mirror := none
  kind := .drive
  state := .done
  current := 0
  attempts := 0
  status := .good
  readSide := .primary
  served := 1
  billable := 1
  staged := 0
  failedVerify := 0
  primaryDone := false
  kept := []

/-- The ACTIVE request of that one segment. -/
def doneRead : Request where
  initiator := 0
  tag := 0
  kind := .read
  window := 2
  feeClass := 3
  level := .counter
  start := 0
  length := 1
  generation := 0
  state := .active
  deadline := none
  segments := [doneSegment]
  delivered := 0
  billable := 0
  staged := 0
  status := .good
  accepted := 0
  stagingExpiry := none
  data := []

/-- The RETURN HOME of platter 0, RUNNING in step 1. -/
def unloadOrder : Order := ⟨0, .returnHome, some 0, none, none, false, 1, .running, false, false⟩

/-- Drive 0 spins down for that order and names the DONE segment, whose target is the platter inside. -/
def unloadsDone : State :=
  { State.reset with
    settings := { Settings.cold with dispatch := false }
    jb := { Jukebox.cold with
      table := [doneRead]
      drives := Jukebox.cold.drives.set 0
        { Drive.bare with state := .unloading, platter := some 0, work := some ⟨.request ⟨0, 0, 0⟩, .counter, [], none, none⟩ }
      platters := Jukebox.cold.platters.set 0 ⟨true, some (.drive 0), .a, false, none⟩
      orders := [unloadOrder]
      picker := { Picker.cold with state := .busy, position := some (.drive 0), inventory := none } } }

/-- The hand-back that the statement names for the segment, by its second row (R151): QUEUED, with its attempt counted. -/
def handsBackDone (j : Jukebox) : Jukebox :=
  j.onSegment ⟨0, 0, 0⟩ fun g => { g with state := .queued, attempts := g.attempts + 1 }

/-- The request states that a command leaves. -/
def requestStates : Host.Outcome State Fault Refusal → List ReqState
  | .next t => t.jb.table.map Request.state
  | .fault _ => []
  | .refused _ => []

theorem unloadsDone_tableWf : unloadsDone.jb.TableWf := ⟨by decide, by decide, by decide⟩

theorem unloadsDone_ordersWf : unloadsDone.jb.OrdersWf := ⟨by decide, by decide⟩

/-- The segment is QUEUED when platter 0 becomes held, so its test finds the platter out of reach (R100). -/
theorem requestStates_of_eject_not_taken :
    requestStates (exec (.spinDownComplete 0 false) unloadsDone) = [.completing] := by decide +kernel

/-- No read that is not DONE has its target on platter 0, or on one out of reach: the statement's clause applies. -/
theorem unloadsDone_other_reads_reachable : ∀ q ∈ unloadsDone.jb.table, ∀ g ∈ q.segments, q.kind = .read → g.state ≠ .done →
    unloadsDone.jb.reachable (g.target .read / 2) = true ∧ g.target .read / 2 ≠ 0 := by decide +kernel

/-- Refutes O57: of a drive that names a segment DONE already, whose eject is not taken.  The statement hands the segment back
(R151) and leaves it QUEUED, for it asks of no DONE segment that its platter stay in reach; the model holds the platter after
the hand-back, and the QUEUED read is then DONE UNAVAILABLE (R100, R155).  The hypotheses allow this state, though a segment
that ends in a drive leaves it, or is noted as dropped. -/
theorem not_driveFaultsAreTaken : ¬ Obligations.DriveFaultsAreTaken := by
  unfold Obligations.DriveFaultsAreTaken
  intro claim
  obtain ⟨-, -, -, -, ejects⟩ := claim unloadsDone 0 rfl unloadsDone_tableWf unloadsDone_ordersWf
  obtain ⟨-, -, -, atPlatter⟩ := ejects rfl rfl
  obtain ⟨notTaken, -⟩ := atPlatter 0 rfl
  have demanded := notTaken handsBackDone unloadOrder (.inl rfl)
    ⟨handsBackDone, id, rfl,
      .inr (.inl ⟨⟨0, 0, 0⟩, doneRead, doneSegment, rfl, rfl, rfl, rfl, by decide, rfl, fun _ => rfl, rfl⟩), rfl,
      fun w c _ hc => nomatch hc⟩
    rfl rfl (by decide) rfl rfl unloadsDone_other_reads_reachable
  have modelled := requestStates_of_eject_not_taken
  rw [demanded] at modelled
  exact absurd modelled (by decide +kernel)

end Sys2Proof.Machine
end
